-- ==== Sys2Proof/Word.lean ====
section
/-! DEFINITION. The words and the numbers of the L6416: the bus word, the slot serial, and the numbers of agents,
units, pools, slots and window words (spec/00_scope.md section 1.4, Table 0-1). -/

namespace Sys2Proof

/-- One bus word: every access the port answers is a full 32-bit word (chapter 10, opening). -/
abbrev Word := BitVec 32

/-- A slot's serial, counted modulo 256 (R22). -/
abbrev Serial := BitVec 8

/-- An agent number, 0 to 15, as driven on AID[3:0] (R135, R170). -/
abbrev AgentId := Fin 16

/-- A unit number, 0 to 63 (R1). -/
abbrev UnitId := Fin 64

/-- A pool number, 0 to 7 (R14). -/
abbrev PoolId := Fin 8

/-- A slot number, 0 to 95 (R22). -/
abbrev SlotId := Fin 96

/-- The word offset A[6:2] of an access: the byte offset divided by four (R170, Table 10-1). -/
abbrev WordOffset := Fin 32

end Sys2Proof
end

