-- ==== Sys2Proof/Syntax.lean ====
section
/-! DEFINITION. The commands and events of the L6416: one constructor for each of the 52 rows of
spec/opcode_table.json, in the table's order.

A command of a station is a write of that station's CMD word by the agent on AID[3:0]; its arguments stand in the
station's ARG0, ARG1 and ARG2 words (R172), so its only operand is the agent number. -/

namespace Sys2Proof

/-- The two command windows: an agent's own station (offsets 000h to 01Bh) and the control station (040h to 05Bh). -/
inductive Window where
  | agent
  | control
  deriving DecidableEq, Repr

/-- A bus access: a read, or a write of the data on D[31:0] (R170). -/
inductive Access where
  | read
  | write (data : Word)
  deriving DecidableEq, Repr

inductive Instr where
  -- commands taken at an agent station (Table 10-2, "agent")
  | attach (aid : AgentId)
  | detach (aid : AgentId)
  | acquire (aid : AgentId)
  | acquireAny (aid : AgentId)
  | release (aid : AgentId)
  | renew (aid : AgentId)
  | upgrade (aid : AgentId)
  | downgrade (aid : AgentId)
  | cancel (aid : AgentId)
  | queryLease (aid : AgentId)
  | queryUnit (aid : AgentId)
  | probe (aid : AgentId)
  | nextNotice (aid : AgentId)
  | setAttention (aid : AgentId)
  -- commands taken at the control station (Table 10-2, "control")
  | configureUnit (aid : AgentId)
  | configurePool (aid : AgentId)
  | setBand (aid : AgentId)
  | setClearance (aid : AgentId)
  | setQuota (aid : AgentId)
  | setTick (aid : AgentId)
  | openUnit (aid : AgentId)
  | drainUnit (aid : AgentId)
  | restoreUnit (aid : AgentId)
  | recallLease (aid : AgentId)
  | recallUnit (aid : AgentId)
  | holdAgent (aid : AgentId)
  | resumeAgent (aid : AgentId)
  | detachAgent (aid : AgentId)
  | setBottom (aid : AgentId)
  | freeze (aid : AgentId)
  | resetLive (aid : AgentId)
  | readCompletions (aid : AgentId)
  | setControlAttention (aid : AgentId)
  | inspectRecord (aid : AgentId)
  | listHolder (aid : AgentId)
  -- the other bus accesses that the table lists
  | undefinedCommand (aid : AgentId) (window : Window) (data : Word)
  | argumentWrite (aid : AgentId) (offset : WordOffset) (data : Word)
  | busyStationWrite (aid : AgentId) (offset : WordOffset) (data : Word)
  | controlWindowRefused (aid : AgentId) (offset : WordOffset) (access : Access)
  -- the board's reset and power
  | hardwareReset
  | powerOn (straps : AgentId)
  -- lease time
  | tick
  | tickArrival (slot : SlotId)
  | leaseExpiry (slot : SlotId)
  | waitTimeout (slot : SlotId)
  | graceExpiry (slot : SlotId)
  -- the detach walk and the end of a drain
  | withdrawalStep (agent : AgentId)
  | holdingStep (agent : AgentId)
  | walkEnd (agent : AgentId)
  | drainCompletion (unit : UnitId)
  -- clock and the release of RST_N
  | clkRisingEdge (tkin : Bool)
  | hardwareResetRelease
  deriving DecidableEq, Repr

end Sys2Proof
end

