-- ==== Sys2Proof/Decode.lean ====
section
/-! DEFINITION. Which command a written command code names (spec/10 Table 10-2), and the host's decodeTableWord.
No row of spec/opcode_table.json gives bits, so decodeTableWord answers none for every word (notes/assumptions/4.md). -/

namespace Sys2Proof

/-- The agent-station command that a code names (Table 10-2, codes marked "agent"). -/
def agentCommand (aid : AgentId) (code : Nat) : Option Instr :=
  match code with
  | 0x01 => some (.attach aid)
  | 0x02 => some (.detach aid)
  | 0x03 => some (.acquire aid)
  | 0x04 => some (.acquireAny aid)
  | 0x05 => some (.release aid)
  | 0x06 => some (.renew aid)
  | 0x07 => some (.upgrade aid)
  | 0x08 => some (.downgrade aid)
  | 0x09 => some (.cancel aid)
  | 0x0A => some (.queryLease aid)
  | 0x0B => some (.queryUnit aid)
  | 0x0C => some (.probe aid)
  | 0x0D => some (.nextNotice aid)
  | 0x0E => some (.setAttention aid)
  | _ => none

/-- The control-station command that a code names (Table 10-2, codes marked "control"). -/
def controlCommand (aid : AgentId) (code : Nat) : Option Instr :=
  match code with
  | 0x21 => some (.configureUnit aid)
  | 0x22 => some (.configurePool aid)
  | 0x23 => some (.setBand aid)
  | 0x24 => some (.setClearance aid)
  | 0x25 => some (.setQuota aid)
  | 0x26 => some (.setTick aid)
  | 0x27 => some (.openUnit aid)
  | 0x28 => some (.drainUnit aid)
  | 0x29 => some (.restoreUnit aid)
  | 0x2A => some (.recallLease aid)
  | 0x2B => some (.recallUnit aid)
  | 0x2C => some (.holdAgent aid)
  | 0x2D => some (.resumeAgent aid)
  | 0x2E => some (.detachAgent aid)
  | 0x2F => some (.setBottom aid)
  | 0x30 => some (.freeze aid)
  | 0x31 => some (.resetLive aid)
  | 0x32 => some (.readCompletions aid)
  | 0x33 => some (.setControlAttention aid)
  | 0x34 => some (.inspectRecord aid)
  | 0x35 => some (.listHolder aid)
  | _ => none

/-- The command that a code names at a window's station (R172). -/
def commandOf (window : Window) (aid : AgentId) (code : Nat) : Option Instr :=
  match window with
  | .agent => agentCommand aid code
  | .control => controlCommand aid code

/-- The command that a word spells by the bits of spec/opcode_table.json: the table gives no row bits. -/
def decodeTableWord (_nbits _w : Nat) : Option Instr := none

end Sys2Proof
end

