-- ==== Sys2Proof/Config.lean ====
section
/-! DEFINITION. What is fixed for the part: its identity word and the defaults of spec/00_scope.md Table 0-1.
The spec leaves no value of a command's result open, so there is no free value here. -/

namespace Sys2Proof.Config

/-- PART_ID: 6416h for the part, 5Ah for the vendor, 01h for the revision (R171). -/
def partId : Word := 0x64165A01#32

/-- Default shared capacity of a unit (Table 1-1). -/
def defaultCapacity : Nat := 1

/-- Default recall grace of a unit, in ticks (Table 1-1). -/
def defaultGrace : Nat := 16

/-- Bottom agent of every unit and pool after each reset (R19 to R21). -/
def defaultBottom : AgentId := 15

/-- Default quota of an agent (Table 8-1). -/
def defaultQuota : Nat := 6

/-- Default internal tick divider, in bus clocks (Table 6-1). -/
def defaultDivider : Nat := 1024

/-- Default band ceiling: no band (Table 9-2). -/
def defaultCeiling : Nat := 64

/-- DESIGN CHOICE (notes/assumptions/1.md): the number on SUPV[3:0] at the power-on that State.reset stands for.
The spec gives the pins and not their level. -/
def resetStraps : AgentId := 0

end Sys2Proof.Config
end

