-- ==== Sys2Proof/Machine/State.lean ====
section
/-! DEFINITION. The state of the L6416 as plain data, the reasons a step can stop, and the state after power-on.

What the spec derives from other state is computed and not stored twice (notes/assumptions/13.md): a unit's holder set
and holder mode, a record's upgrade-pending field, an agent's record count, a station's BUSY, ATN_N and CATN_N. -/

namespace Sys2Proof.Machine

/-- How a unit is asked for or held (Table 2-1). -/
inductive Mode where
  | shared
  | exclusive
  deriving DecidableEq, Repr

/-- How a queue is ranked (R80, R81). -/
inductive OrderMode where
  | arrival
  | ring
  deriving DecidableEq, Repr

/-- OFFLINE, OPEN and DRAINING (R3). -/
inductive UnitState where
  | offline
  | opened
  | draining
  deriving DecidableEq, Repr

/-- What a record or a notice is about: a unit, or a pool (the pool marker, Table 7-1). -/
inductive Target where
  | unit (u : UnitId)
  | pool (p : PoolId)
  deriving DecidableEq, Repr

/-- A record's kind with its target: UNIT_WAIT on a unit, POOL_WAIT on a pool, LEASE on a unit (R23). -/
inductive Claim where
  | unitWait (u : UnitId)
  | poolWait (p : PoolId)
  | lease (u : UnitId)
  deriving DecidableEq, Repr

/-- Why a record ended (R26). -/
inductive SpentCause where
  | expired
  | revoked
  | timedOut
  | withdrawn
  deriving DecidableEq, Repr

/-- A record's state with the fields that Table 2-2 marks present in it.
The countdown is the rest of the wait limit, of the lease time or of the grace; `none` is an absent countdown. -/
inductive Standing where
  /-- WAITING: target, requested duration (0 asks for an indefinite lease), rest of the wait limit. -/
  | waiting (target : Target) (requested : Nat) (countdown : Option Nat)
  /-- HELD: unit, depth, rest of the lease time. -/
  | held (unit : UnitId) (depth : Nat) (countdown : Option Nat)
  /-- RECALLED: unit, depth, rest of the grace (always present, R25). -/
  | recalled (unit : UnitId) (depth : Nat) (grace : Nat)
  /-- SPENT: the kind and target it had, and the cause (R29). -/
  | spent (claim : Claim) (cause : SpentCause)
  deriving DecidableEq, Repr

/-- A lease record (Table 2-1); its handle is its slot with the slot's serial. -/
structure Record where
  agent : AgentId
  mode : Mode
  standing : Standing
  deriving DecidableEq, Repr

/-- A slot of the record store: its serial, and the record that occupies it (`none`: FREE) (R22). -/
structure Slot where
  serial : Serial
  record : Option Record
  deriving DecidableEq, Repr

/-- The six configuration fields of a unit (Table 1-1); `limit = none` is UNBOUNDED, `pool = none` is NONE. -/
structure UnitConfig where
  pool : Option PoolId
  capacity : Nat
  order : OrderMode
  rotate : Bool
  limit : Option Nat
  grace : Nat
  deriving DecidableEq, Repr

/-- A unit record: configuration and the stored operating fields (Table 1-2). -/
structure UnitRecord where
  config : UnitConfig
  state : UnitState
  queue : List SlotId
  mark : Option SlotId
  bottom : AgentId
  deriving DecidableEq, Repr

/-- A pool record (Table 1-4). -/
structure PoolRecord where
  order : OrderMode
  rotate : Bool
  bottom : AgentId
  queue : List SlotId
  deriving DecidableEq, Repr

/-- DETACHED, ATTACHED and DETACHING (R135). -/
inductive AgentState where
  | detached
  | attached
  | detaching
  deriving DecidableEq, Repr

/-- An agent record (Table 8-1), but for the record count, which is derived from the store. -/
structure AgentRecord where
  state : AgentState
  quota : Nat
  clearance : Bool
  held : Bool
  deriving DecidableEq, Repr

/-- The kinds of notice (Table 7-1). -/
inductive NoticeKind where
  | granted
  | upgraded
  | recalled
  | expired
  | revoked
  | timedOut
  | withdrawn
  deriving DecidableEq, Repr

/-- The name of a record: slot number and serial (R32). -/
structure Handle where
  slot : SlotId
  serial : Serial
  deriving DecidableEq, Repr

/-- A notice entry (Table 7-1); the pool marker is the target being a pool. -/
structure Notice where
  kind : NoticeKind
  handle : Handle
  target : Target
  deriving DecidableEq, Repr

/-- One agent's notice queue, oldest first, and its attention enable (R122, R130). -/
structure NoticeQueue where
  entries : List Notice
  attention : Bool
  deriving DecidableEq, Repr

/-- The seven words of a station (Table 10-1). `cmd` holds the code of the last command taken, in bits 7:0. -/
structure Station where
  arg0 : Word
  arg1 : Word
  arg2 : Word
  cmd : Word
  resp0 : Word
  resp1 : Word
  stat : Word
  deriving DecidableEq, Repr

/-- Where ticks come from (R107). -/
inductive TickSource where
  | off
  | pin
  | internal
  deriving DecidableEq, Repr

/-- A tick still on its way to the record in a slot (R111). `stale` says that the record has been retired, or its
countdown removed or replaced, since the tick was taken: such an arrival does nothing. -/
structure Arrival where
  slot : SlotId
  stale : Bool
  deriving DecidableEq, Repr

/-- The lease timer (Table 6-1). `inFlight` lists the arrivals still to be made, those of older ticks first. -/
structure Timer where
  source : TickSource
  divider : Nat
  count : Nat
  reference : Option Bool
  inFlight : List Arrival
  deriving DecidableEq, Repr

/-- What the port drove in the event last taken: ERR_N asserted (R171), and D[31:0] where a read was answered (R170). -/
structure PortPins where
  err : Bool
  data : Option Word
  deriving DecidableEq, Repr

/-- The whole state of the part, and the queue of commands and events still to be taken. -/
structure State where
  units : Vector UnitRecord 64
  pools : Vector PoolRecord 8
  slots : Vector Slot 96
  agents : Vector AgentRecord 16
  notices : Vector NoticeQueue 16
  stations : Vector Station 16
  control : Station
  timer : Timer
  ceiling : Nat
  frozen : Bool
  drained : Vector Bool 64
  detached : Vector Bool 16
  controlAttention : Bool
  supervisor : AgentId
  inReset : Bool
  port : PortPins
  pending : List Instr
  deriving DecidableEq, Repr

/-- There is no fault: the spec names no command and no event that stops the part (notes/assumptions/20.md). -/
inductive Fault where
  deriving DecidableEq, Repr

/-- Why a command has no meaning in this model. -/
inductive Refusal where
  /-- Raised by a refused arm of `exec` alone: the command has no meaning yet. Safe: the run stops. No arm uses it. -/
  | notModelled (mnemonic : String)
  deriving DecidableEq, Repr

/-- Table 1-1's defaults. -/
def UnitConfig.default : UnitConfig :=
  { pool := none, capacity := Config.defaultCapacity, order := .arrival, rotate := false, limit := none,
    grace := Config.defaultGrace }

/-- A station whose words are all 0 (R177). -/
def Station.zero : Station := ⟨0, 0, 0, 0, 0, 0, 0⟩

/-- An agent record after power-on: clearance is yes for the supervisor agent alone (R153). -/
def AgentRecord.default (supervisor a : AgentId) : AgentRecord :=
  { state := .detached, quota := Config.defaultQuota, clearance := decide (a = supervisor), held := false }

/-- The part after power-on with `straps` on SUPV[3:0] (R20, R21, R43, R121, R134, R153, R169, R177). -/
def State.afterPowerOn (straps : AgentId) : State :=
  { units := Vector.replicate 64
      { config := UnitConfig.default, state := .offline, queue := [], mark := none, bottom := Config.defaultBottom }
    pools := Vector.replicate 8 { order := .arrival, rotate := false, bottom := Config.defaultBottom, queue := [] }
    slots := Vector.replicate 96 { serial := 0, record := none }
    agents := Vector.ofFn (AgentRecord.default straps)
    notices := Vector.replicate 16 { entries := [], attention := false }
    stations := Vector.replicate 16 Station.zero
    control := Station.zero
    timer := { source := .off, divider := Config.defaultDivider, count := 0, reference := none, inFlight := [] }
    ceiling := Config.defaultCeiling
    frozen := false
    drained := Vector.replicate 64 false
    detached := Vector.replicate 16 false
    controlAttention := false
    supervisor := straps
    inReset := false
    port := { err := false, data := none }
    pending := [] }

/-- The machine right after reset: power-on, with the straps of `Config.resetStraps` (DESIGN CHOICE,
notes/assumptions/1.md) and RST_N released (DESIGN CHOICE, notes/assumptions/2.md). -/
def State.reset : State := State.afterPowerOn Config.resetStraps

end Sys2Proof.Machine
end

