-- ==== Sys2Proof/Machine/Registers.lean ====
section
/-! DEFINITION. Reading and writing one register of each array of the state: a unit record, a pool record, a slot, an
agent record, a notice queue, a station. Every other file goes through these. -/

namespace Sys2Proof.Machine

/-- The unit record of unit u. -/
def State.unit (s : State) (u : UnitId) : UnitRecord := s.units.get u

/-- The pool record of pool p. -/
def State.pool (s : State) (p : PoolId) : PoolRecord := s.pools.get p

/-- The slot numbered i. -/
def State.slot (s : State) (i : SlotId) : Slot := s.slots.get i

/-- The record in slot i, `none` where the slot is FREE. -/
def State.record (s : State) (i : SlotId) : Option Record := (s.slot i).record

/-- The agent record of agent a. -/
def State.agent (s : State) (a : AgentId) : AgentRecord := s.agents.get a

/-- The notice queue and attention enable of agent a. -/
def State.notice (s : State) (a : AgentId) : NoticeQueue := s.notices.get a

/-- The stored words of agent a's station. -/
def State.station (s : State) (a : AgentId) : Station := s.stations.get a

def State.setUnit (s : State) (u : UnitId) (r : UnitRecord) : State :=
  { s with units := s.units.set u.val r u.isLt }

def State.setPool (s : State) (p : PoolId) (r : PoolRecord) : State :=
  { s with pools := s.pools.set p.val r p.isLt }

def State.setSlot (s : State) (i : SlotId) (x : Slot) : State :=
  { s with slots := s.slots.set i.val x i.isLt }

def State.setAgent (s : State) (a : AgentId) (r : AgentRecord) : State :=
  { s with agents := s.agents.set a.val r a.isLt }

def State.setNotice (s : State) (a : AgentId) (q : NoticeQueue) : State :=
  { s with notices := s.notices.set a.val q a.isLt }

def State.setStation (s : State) (a : AgentId) (st : Station) : State :=
  { s with stations := s.stations.set a.val st a.isLt }

def State.setControl (s : State) (st : Station) : State := { s with control := st }

def State.setTimer (s : State) (t : Timer) : State := { s with timer := t }

def State.setPort (s : State) (p : PortPins) : State := { s with port := p }

/-- Unit u's number is in the drained set from now on, once (R164). -/
def State.addDrained (s : State) (u : UnitId) : State :=
  { s with drained := s.drained.set u.val true u.isLt }

/-- Agent a's number is in the detached set from now on, once (R164). -/
def State.addDetached (s : State) (a : AgentId) : State :=
  { s with detached := s.detached.set a.val true a.isLt }

/-- A new event begins: the access of the event before it is over, so ERR_N is released and D is not driven (R171). -/
def State.quiet (s : State) : State := s.setPort { err := false, data := none }

/-- The record in slot i is replaced; the slot keeps its serial. -/
def State.writeRecord (s : State) (i : SlotId) (r : Option Record) : State :=
  s.setSlot i { s.slot i with record := r }

/-- Every arrival in flight for slot i finds its countdown removed or replaced from now on (R111). -/
def Timer.spoil (t : Timer) (i : SlotId) : Timer :=
  { t with inFlight := t.inFlight.map fun a => if a.slot = i then { a with stale := true } else a }

/-- The record in slot i is replaced together with its countdown, or ends: an arrival already in flight for it does
nothing (R111). -/
def State.loadRecord (s : State) (i : SlotId) (r : Option Record) : State :=
  (s.writeRecord i r).setTimer (s.timer.spoil i)

end Sys2Proof.Machine
end

