-- ==== Sys2Proof/Machine/Flags.lean ====
section
/-! DEFINITION. What the spec derives from the stored state: a record's kind, target, depth and countdown; holder sets,
holder modes, upgrade-pending fields and record counts; a station's BUSY; the band and clearances; the attention lines
ATN_N and CATN_N. -/

namespace Sys2Proof.Machine

/-- All slots in ascending number. -/
def allSlots : List SlotId := List.finRange 96

/-- All units in ascending number. -/
def allUnits : List UnitId := List.finRange 64

/-- All pools in ascending number. -/
def allPools : List PoolId := List.finRange 8

/-- All agents in ascending number. -/
def allAgents : List AgentId := List.finRange 16

/-- The unit or pool that a claim names. -/
def Claim.target : Claim → Target
  | .unitWait u => .unit u
  | .poolWait p => .pool p
  | .lease u => .unit u

/-- The number of a unit or pool, as a location or a target field carries it. -/
def Target.number : Target → Nat
  | .unit u => u.val
  | .pool p => p.val

/-- A record's kind with its target (R23): a HELD or RECALLED record is a LEASE, a WAITING record a wait, and a SPENT
record keeps the kind and target it had. -/
def Standing.claim : Standing → Claim
  | .waiting (.unit u) _ _ => .unitWait u
  | .waiting (.pool p) _ _ => .poolWait p
  | .held u _ _ => .lease u
  | .recalled u _ _ => .lease u
  | .spent c _ => c

/-- The record's target: its unit, or the pool of a POOL_WAIT. -/
def Record.target (r : Record) : Target := r.standing.claim.target

/-- The depth, present when HELD or RECALLED (Table 2-2). -/
def Standing.depth : Standing → Option Nat
  | .held _ d _ => some d
  | .recalled _ d _ => some d
  | .waiting .. | .spent .. => none

/-- The countdown, where present (Table 2-2, Table 6-3). -/
def Standing.countdown : Standing → Option Nat
  | .waiting _ _ c => c
  | .held _ _ c => c
  | .recalled _ _ g => some g
  | .spent .. => none

/-- The record is WAITING. -/
def Record.isWaiting (r : Record) : Bool :=
  match r.standing with
  | .waiting .. => true
  | .held .. | .recalled .. | .spent .. => false

/-- The record is SPENT. -/
def Record.isSpent (r : Record) : Bool :=
  match r.standing with
  | .spent .. => true
  | .waiting .. | .held .. | .recalled .. => false

/-- The unit whose holder set the record stands in: that of a HELD or RECALLED record (R4). -/
def Record.holding (r : Record) : Option UnitId :=
  match r.standing with
  | .held u _ _ => some u
  | .recalled u _ _ => some u
  | .waiting .. | .spent .. => none

/-- The record is HELD on unit u. -/
def Record.isHeldOn (r : Record) (u : UnitId) : Bool :=
  match r.standing with
  | .held v _ _ => decide (v = u)
  | .recalled .. | .waiting .. | .spent .. => false

/-- The agent of the record in slot i. -/
def State.owner (s : State) (i : SlotId) : Option AgentId := (s.record i).map Record.agent

/-- The unit that the record in slot i holds. -/
def State.holding (s : State) (i : SlotId) : Option UnitId := (s.record i).bind Record.holding

/-- The holder set of unit u, in ascending slot number: the HELD and RECALLED records whose target is u (R4). -/
def State.holders (s : State) (u : UnitId) : List SlotId := allSlots.filter fun i => s.holding i == some u

/-- The record in slot i is of mode SHARED. -/
def State.isShared (s : State) (i : SlotId) : Bool := (s.record i).any fun r => r.mode == Mode.shared

/-- The holder mode of a unit: NONE (`none`), SHARED or EXCLUSIVE, derived from its holder set (R4). -/
def State.holderMode (s : State) (u : UnitId) : Option Mode :=
  match s.holders u with
  | [] => none
  | hs => if hs.all s.isShared then some .shared else some .exclusive

/-- The holder record of agent a on unit u, in the lowest slot (R48: there is at most one). -/
def State.holderOf (s : State) (a : AgentId) (u : UnitId) : Option SlotId :=
  (s.holders u).find? fun i => s.owner i == some a

/-- The record in slot i is its unit's pending upgrade: its upgrade-pending field reads yes (R26). -/
def State.upgradePending (s : State) (i : SlotId) : Bool :=
  match s.holding i with
  | some u => (s.unit u).mark == some i
  | none => false

/-- The record count of agent a: the number of slots whose record belongs to it (R38). -/
def State.recordCount (s : State) (a : AgentId) : Nat := allSlots.countP fun i => s.owner i == some a

/-- The WAITING records of agent a, in ascending slot number. -/
def State.waitsOf (s : State) (a : AgentId) : List SlotId :=
  allSlots.filter fun i => (s.record i).any fun r => r.agent == a && r.isWaiting

/-- Agent a has a WAITING record in the queue (R49, R53, R69). -/
def State.waitsIn (s : State) (a : AgentId) (queue : List SlotId) : Bool :=
  queue.any fun i => (s.record i).any fun r => r.agent == a && r.isWaiting

/-- Agent a is ATTACHED. -/
def State.isAttached (s : State) (a : AgentId) : Bool := (s.agent a).state == AgentState.attached

/-- An agent station is BUSY exactly while its agent's walk runs (R146, R173). -/
def State.busy (s : State) (a : AgentId) : Bool := (s.agent a).state == AgentState.detaching

/-- The clearance of agent a; the supervisor agent's reads yes in every state of the part (R154). -/
def State.clearance (s : State) (a : AgentId) : Bool := a == s.supervisor || (s.agent a).clearance

/-- Unit u is in the band: at or above the band ceiling (R155). -/
def State.inBand (s : State) (u : UnitId) : Bool := decide (s.ceiling ≤ u.val)

/-- The band permits agent a on unit u (R72). -/
def State.bandPermits (s : State) (a : AgentId) (u : UnitId) : Bool := !s.inBand u || s.clearance a

/-- The members of pool p, in ascending unit number (R15). -/
def State.members (s : State) (p : PoolId) : List UnitId :=
  allUnits.filter fun u => (s.unit u).config.pool == some p

/-- The handle of the record in slot i (R32). -/
def State.handle (s : State) (i : SlotId) : Handle := { slot := i, serial := (s.slot i).serial }

/-- An unread entry for the record in slot i stands in agent a's queue. -/
def State.hasEntry (s : State) (a : AgentId) (i : SlotId) : Bool :=
  (s.notice a).entries.any fun n => n.handle == s.handle i

/-- ATN_N[a] is asserted: the queue holds an entry and the attention enable is on (R131). -/
def State.atn (s : State) (a : AgentId) : Bool := !(s.notice a).entries.isEmpty && (s.notice a).attention

/-- The number of entries in the drained set. -/
def State.drainedCount (s : State) : Nat := allUnits.countP fun u => s.drained.get u

/-- The number of entries in the detached set. -/
def State.detachedCount (s : State) : Nat := allAgents.countP fun a => s.detached.get a

/-- CATN_N is asserted: either completion set holds an entry and the control attention enable is on (R164). -/
def State.catn (s : State) : Bool :=
  (allUnits.any (fun u => s.drained.get u) || allAgents.any (fun a => s.detached.get a)) && s.controlAttention

/-- A waiter's agent is ATTACHED and not held, and the band permits it on unit u (R72). -/
def State.mayBeGranted (s : State) (a : AgentId) (u : UnitId) : Bool :=
  s.isAttached a && !(s.agent a).held && s.bandPermits a u

/-- The waiter in slot i is eligible on unit u (R72); only a WAITING record is a waiter. -/
def State.eligible (s : State) (i : SlotId) (u : UnitId) : Bool :=
  (s.record i).any fun r => r.isWaiting && s.mayBeGranted r.agent u

/-- A waiter of the given mode is compatible with unit u's holder set (R73, Table 4-4). -/
def State.compatible (s : State) (mode : Mode) (u : UnitId) : Bool :=
  (s.holders u).isEmpty ||
    (mode == Mode.shared && (s.holders u).all s.isShared &&
      decide ((s.holders u).length < (s.unit u).config.capacity))

/-- The waiter in slot i is compatible with unit u's holder set (R73). -/
def State.fits (s : State) (i : SlotId) (u : UnitId) : Bool := (s.record i).any fun r => s.compatible r.mode u

/-- The waiters of a queue in rank order: arrival order, or around the ring of agent numbers that starts just after the
bottom agent (R80, R81). -/
def State.rank (s : State) (order : OrderMode) (bottom : AgentId) (queue : List SlotId) : List SlotId :=
  match order with
  | .arrival => queue
  | .ring => allAgents.flatMap fun k => queue.filter fun i => s.owner i == some (bottom + 1 + k)

end Sys2Proof.Machine
end

