-- ==== Sys2Proof/Machine/Formats.lean ====
section
/-! DEFINITION. The numbers of Table 10-3 and Table 10-7, the record formats of Table 10-4, the status word of Table
10-6, and the answers a station can hold. -/

namespace Sys2Proof.Machine

/-- A value in the `width` bits of a word that start at `low`; every other bit is 0. -/
def place (low width value : Nat) : Word := BitVec.ofNat 32 (value % 2 ^ width * 2 ^ low)

/-- Marks, flags, yes/no and on/off: 1 for set, yes or on (Table 10-3). -/
def flagNo (b : Bool) : Nat := if b then 1 else 0

def Mode.no : Mode → Nat
  | .shared => 0
  | .exclusive => 1

def TickSource.no : TickSource → Nat
  | .off => 0
  | .pin => 1
  | .internal => 2

/-- Record state numbers; 0 is FREE. -/
def Standing.stateNo : Standing → Nat
  | .waiting .. => 1
  | .held .. => 2
  | .recalled .. => 3
  | .spent .. => 4

def Claim.kindNo : Claim → Nat
  | .unitWait _ => 0
  | .poolWait _ => 1
  | .lease _ => 2

def SpentCause.no : SpentCause → Nat
  | .expired => 1
  | .revoked => 2
  | .timedOut => 3
  | .withdrawn => 4

/-- The spent cause field of a record: 0 unless SPENT (Table 2-5). -/
def Standing.causeNo : Standing → Nat
  | .spent _ c => c.no
  | .waiting .. | .held .. | .recalled .. => 0

/-- Notice kind numbers; 0 is NONE. -/
def NoticeKind.no : NoticeKind → Nat
  | .granted => 1
  | .upgraded => 2
  | .recalled => 3
  | .expired => 4
  | .revoked => 5
  | .timedOut => 6
  | .withdrawn => 7

def UnitState.no : UnitState → Nat
  | .offline => 0
  | .opened => 1
  | .draining => 2

/-- Holder mode numbers: 0 NONE, 1 SHARED, 2 EXCLUSIVE. -/
def holderModeNo : Option Mode → Nat
  | none => 0
  | some .shared => 1
  | some .exclusive => 2

/-- The pool marker of a target (Table 10-4). -/
def Target.marker : Target → Nat
  | .unit _ => 0
  | .pool _ => 1

/-- The handle field, 15:0: slot in 7:0, serial in 15:8 (R174). -/
def Handle.word (h : Handle) : Word := place 0 8 h.slot.val ||| place 8 8 h.serial.toNat

/-- The target in 21:16 and the pool marker in 23. -/
def Target.word (t : Target) : Word := place 16 6 t.number ||| place 23 1 t.marker

/-- The record word with its handle and target, agent field 0: the answers at agent stations whose rule gives the handle
(R175). A rule that gives the target without the handle reads `Target.word` alone. -/
def recordWord (h : Handle) (t : Target) : Word := h.word ||| t.word

/-- The record word with handle, target and agent, as RECALL_LEASE gives it (R159, R175). -/
def recordWordWithAgent (h : Handle) (t : Target) (a : AgentId) : Word := recordWord h t ||| place 24 4 a.val

/-- The record word with handle and agent and the present mark, bit 31, as PROBE and LIST_HOLDER give it: their rules list
no target, which reads 0 (R18, R88, R175). -/
def presentWord (h : Handle) (a : AgentId) : Word := h.word ||| place 24 4 a.val ||| place 31 1 1

/-- The whole record status word of the record in slot i (Table 10-4); absent depth and countdown read 0 (R40). -/
def State.statusWord (s : State) (i : SlotId) (r : Record) : Word :=
  place 0 3 r.standing.stateNo ||| place 4 2 r.standing.claim.kindNo ||| place 6 1 r.mode.no |||
    place 7 1 (flagNo (s.upgradePending i)) ||| place 8 4 (r.standing.depth.getD 0) |||
    place 12 3 r.standing.causeNo ||| place 16 12 (r.standing.countdown.getD 0)

/-- The items of LIST_HOLDER in record status word positions: state, mode, upgrade pending and depth (R18, R175). -/
def State.holderWord (s : State) (i : SlotId) (r : Record) : Word :=
  place 0 3 r.standing.stateNo ||| place 6 1 r.mode.no ||| place 7 1 (flagNo (s.upgradePending i)) |||
    place 8 4 (r.standing.depth.getD 0)

/-- The notice result word (Table 10-4). -/
def noticeWord (n : Notice) (remaining : Nat) : Word :=
  n.handle.word ||| n.target.word ||| place 24 3 n.kind.no ||| place 28 3 remaining

/-- The status numbers of Table 10-7 that an answer can carry, with the reason and location of a refusal. -/
inductive Status where
  | ok
  | granted
  | queued
  | lapsed
  | stale
  | alreadyGranted
  | refused (reason location : Nat)
  deriving DecidableEq, Repr

/-- Reason numbers (Table 10-7). -/
def Reason.badCommand : Nat := 1
def Reason.badArgument : Nat := 2
def Reason.notAttached : Nat := 3
def Reason.alreadyAttached : Nat := 4
def Reason.detaching : Nat := 5
def Reason.noUnit : Nat := 6
def Reason.noPool : Nat := 7
def Reason.unitState : Nat := 8
def Reason.band : Nat := 9
def Reason.mode : Nat := 10
def Reason.depth : Nat := 11
def Reason.alreadyWaiting : Nat := 12
def Reason.quota : Nat := 13
def Reason.noRecord : Nat := 14
def Reason.unavailable : Nat := 15
def Reason.notHolder : Nat := 16
def Reason.recalled : Nat := 17
def Reason.conflict : Nat := 18
def Reason.frozen : Nat := 19
def Reason.inUse : Nat := 20
def Reason.bandOccupied : Nat := 21
def Reason.quotaInUse : Nat := 22

/-- The status word: status 2:0, and for a refusal reason 12:8 and location 21:16 (R176, Table 10-6). -/
def Status.word : Status → Word
  | .ok => 0
  | .granted => 1
  | .queued => 2
  | .lapsed => 3
  | .stale => 4
  | .alreadyGranted => 5
  | .refused reason location => 7 ||| place 8 5 reason ||| place 16 6 location

/-- What a BUSY station's STAT reads: status BUSY (6) with the busy bit set (R173). -/
def busyWord : Word := 0x80000006#32

/-- An answer: status word and response words, written together (R176). -/
structure Answer where
  status : Status
  resp0 : Word
  resp1 : Word
  deriving DecidableEq, Repr

/-- OK with response words. -/
def Answer.ok (resp0 resp1 : Word) : Answer := ⟨.ok, resp0, resp1⟩

/-- A refusal: response words 0 (R175). -/
def Answer.refuse (reason location : Nat) : Answer := ⟨.refused reason location, 0, 0⟩

/-- STALE: reason 0, location 0, response words 0 (R33). -/
def Answer.stale : Answer := ⟨.stale, 0, 0⟩

/-- The answer stands in a station's STAT, RESP0 and RESP1 (R172); its argument words and CMD are kept. -/
def Station.answered (st : Station) (a : Answer) : Station :=
  { st with stat := a.status.word, resp0 := a.resp0, resp1 := a.resp1 }

/-- The answer is written into agent a's station. -/
def State.answer (s : State) (a : AgentId) (ans : Answer) : State := s.setStation a ((s.station a).answered ans)

/-- The answer is written into the control station. -/
def State.answerControl (s : State) (ans : Answer) : State := s.setControl (s.control.answered ans)

end Sys2Proof.Machine
end

