-- ==== Sys2Proof/Machine/Operands.lean ====
section
/-! DEFINITION. The fields of the argument words and the settings their numbers name (spec/10 Table 10-2, Table 10-3,
R174). A number that names no setting reads as `none`. -/

namespace Sys2Proof.Machine

/-- The `width` bits of a word that start at bit `low`, as a number. -/
def bitField (w : Word) (low width : Nat) : Nat := w.toNat / 2 ^ low % 2 ^ width

/-- Mode: 0 SHARED, 1 EXCLUSIVE. -/
def modeOf : Nat → Option Mode
  | 0 => some .shared
  | 1 => some .exclusive
  | _ => none

/-- FULL, rotate, yes/no, on/off: 0 clear, no or off; 1 set, yes or on. -/
def flagOf : Nat → Option Bool
  | 0 => some false
  | 1 => some true
  | _ => none

/-- Order mode: 0 ARRIVAL, 1 RING. -/
def orderOf : Nat → Option OrderMode
  | 0 => some .arrival
  | 1 => some .ring
  | _ => none

/-- Tick source: 0 OFF, 1 PIN, 2 INTERNAL. -/
def sourceOf : Nat → Option TickSource
  | 0 => some .off
  | 1 => some .pin
  | 2 => some .internal
  | _ => none

/-- A unit number that names a unit, 0 to 63. -/
def unitOf (n : Nat) : Option UnitId := if h : n < 64 then some ⟨n, h⟩ else none

/-- A pool number that names a pool, 0 to 7. -/
def poolOf (n : Nat) : Option PoolId := if h : n < 8 then some ⟨n, h⟩ else none

/-- A slot number that names a slot, 0 to 95. -/
def slotOf (n : Nat) : Option SlotId := if h : n < 96 then some ⟨n, h⟩ else none

/-- An agent number that names an agent, 0 to 15. -/
def agentOf (n : Nat) : Option AgentId := if h : n < 16 then some ⟨n, h⟩ else none

/-- The pool field of CONFIGURE_UNIT: 15 names NONE, 0 to 7 a pool; any other value is out of range (R174). -/
def poolFieldOf (n : Nat) : Option (Option PoolId) :=
  if n = 15 then some none else (poolOf n).map some

/-- The duration limit of CONFIGURE_UNIT: 0 names UNBOUNDED, 1 to 4095 that many ticks (R174). -/
def limitOf (n : Nat) : Option (Option Nat) :=
  if n = 0 then some none else if n ≤ 4095 then some (some n) else none

/-- The shared capacity of CONFIGURE_UNIT: 1 to 4 (R174). -/
def capacityOf (n : Nat) : Option Nat := if 1 ≤ n ∧ n ≤ 4 then some n else none

/-- The recall grace of CONFIGURE_UNIT: 0 to 255 (R174). -/
def graceOf (n : Nat) : Option Nat := if n ≤ 255 then some n else none

/-- The six fields of CONFIGURE_UNIT from ARG1 and ARG2; `none` when any is out of range (R11, Table 10-2). -/
def unitConfigOf (st : Station) : Option UnitConfig := do
  let pool ← poolFieldOf (bitField st.arg1 0 4)
  let capacity ← capacityOf (bitField st.arg1 4 3)
  let order ← orderOf (bitField st.arg1 8 2)
  let rotate ← flagOf (bitField st.arg1 10 2)
  let grace ← graceOf (bitField st.arg1 16 16)
  let limit ← limitOf (bitField st.arg2 0 16)
  pure { pool, capacity, order, rotate, limit, grace }

/-- The arguments of CONFIGURE_POOL in ARG1 (R16, Table 10-2). -/
def poolOrderOf (st : Station) : Option (OrderMode × Bool) := do
  let order ← orderOf (bitField st.arg1 8 2)
  let rotate ← flagOf (bitField st.arg1 10 2)
  pure (order, rotate)

/-- The source and divider of SET_TICK; `none` when either is out of range (R110). -/
def tickSetupOf (st : Station) : Option (TickSource × Nat) := do
  let source ← sourceOf (bitField st.arg0 0 2)
  if 16 ≤ st.arg1.toNat ∧ st.arg1.toNat ≤ 65536 then pure (source, st.arg1.toNat) else none

end Sys2Proof.Machine
end

