-- ==== Sys2Proof/Machine/Ops.lean ====
section
/-! DEFINITION. The operations that commands and events share: posting and withdrawing notices, the grant passes,
departures, retirement and spending of records, recall, the detach walk, and the taking of a command at a station. -/

namespace Sys2Proof.Machine

/-! ### Notices (chapter 7) -/

/-- The queue after a post: the record's unread entry takes the new kind in place; otherwise a new entry joins at the
tail (R123, R125). -/
def postEntry (entries : List Notice) (n : Notice) : List Notice :=
  if entries.any fun e => e.handle == n.handle then
    entries.map fun e => if e.handle = n.handle then { e with kind := n.kind } else e
  else entries ++ [n]

/-- A notice about the record in slot i is posted to its agent, unless the agent is not ATTACHED (R123, R124). -/
def State.post (s : State) (kind : NoticeKind) (i : SlotId) : State :=
  match s.record i with
  | none => s
  | some r =>
    if s.isAttached r.agent then
      let q := s.notice r.agent
      s.setNotice r.agent { q with entries := postEntry q.entries ⟨kind, s.handle i, r.target⟩ }
    else s

/-- The unread entry for the record in slot i leaves agent a's queue, and those behind it close up (R127). -/
def State.withdrawEntry (s : State) (a : AgentId) (i : SlotId) : State :=
  let q := s.notice a
  s.setNotice a { q with entries := q.entries.filter fun n => n.handle != s.handle i }

/-! ### The grant arbiter (chapter 4) -/

/-- Effective duration from a requested duration and a duration limit (R55, Table 3-4); `none` is indefinite. -/
def effectiveDuration (requested : Nat) (limit : Option Nat) : Option Nat :=
  match limit with
  | some l => some (if requested = 0 then l else min requested l)
  | none => if requested = 0 then none else some requested

/-- Slot i leaves the wait queue of a target, and the records behind it close up (R7, R14). -/
def State.dequeue (s : State) (t : Target) (i : SlotId) : State :=
  match t with
  | .unit u => s.setUnit u { s.unit u with queue := (s.unit u).queue.filter (· ≠ i) }
  | .pool p => s.setPool p { s.pool p with queue := (s.pool p).queue.filter (· ≠ i) }

/-- The waiter in slot i is granted unit u: it leaves its queue and becomes a LEASE HELD at depth 1 with its effective
duration; a GRANTED notice is posted, except for the calling command's own record `own` (R74, R78). -/
def State.grant (s : State) (own : Option SlotId) (u : UnitId) (i : SlotId) : State :=
  match s.record i with
  | none => s
  | some r =>
    match r.standing with
    | .waiting t requested _ =>
      let lease := effectiveDuration requested (s.unit u).config.limit
      let s := (s.dequeue t i).loadRecord i (some { r with standing := .held u 1 lease })
      if own = some i then s else s.post .granted i
    | .held .. | .recalled .. | .spent .. => s

/-- Stage B over the ranked waiters of unit u: ineligible ones are passed over, compatible ones granted, and the first
eligible one that is not compatible stops the stage (R74). Answers the state and the last waiter's agent granted. -/
def stageBWalk (own : Option SlotId) (u : UnitId) : List SlotId → State → Option AgentId → State × Option AgentId
  | [], s, last => (s, last)
  | i :: rest, s, last =>
    if s.eligible i u then
      if s.fits i u then stageBWalk own u rest (s.grant own u i) ((s.owner i).or last) else (s, last)
    else stageBWalk own u rest s last

/-- Stage B with the rotation of the unit's bottom agent at its end (R74, R76). -/
def State.stageB (s : State) (own : Option SlotId) (u : UnitId) : State :=
  let rec0 := s.unit u
  let ranked := s.rank rec0.config.order rec0.bottom rec0.queue
  match stageBWalk own u ranked s none with
  | (s, none) => s
  | (s, some a) =>
    if rec0.config.order = .ring ∧ rec0.config.rotate = true then s.setUnit u { s.unit u with bottom := a } else s

/-- Stage C on unit u: the highest-ranked eligible waiter of u's pool is granted u, and the pool's bottom agent rotates
(R77, R78). -/
def State.stageC (s : State) (own : Option SlotId) (u : UnitId) : State :=
  match (s.unit u).config.pool with
  | none => s
  | some p =>
    let pool := s.pool p
    match (s.rank pool.order pool.bottom pool.queue).find? fun i => s.eligible i u with
    | none => s
    | some i =>
      let granted := s.grant own u i
      match s.owner i with
      | none => granted
      | some a =>
        if pool.order = .ring ∧ pool.rotate = true then granted.setPool p { granted.pool p with bottom := a }
        else granted

/-- The mode of the record in slot i becomes `m`, in place. -/
def State.setMode (s : State) (i : SlotId) (m : Mode) : State :=
  match s.record i with
  | none => s
  | some r => s.writeRecord i (some { r with mode := m })

/-- The pending-upgrade mark of unit u is cleared. -/
def State.clearMark (s : State) (u : UnitId) : State := s.setUnit u { s.unit u with mark := none }

/-- The pending-upgrade mark of unit u is cleared if it names slot i (R6, R8). -/
def State.clearMarkOf (s : State) (u : UnitId) (i : SlotId) : State :=
  if (s.unit u).mark = some i then s.clearMark u else s

/-- A unit grant pass on unit u: nothing unless u is OPEN; stage A for a pending upgrade, otherwise stage B and, where no
holder stands after it, stage C (R70, R71, R74, R77). `own` is the record the calling command created. -/
def State.unitPass (s : State) (own : Option SlotId) (u : UnitId) : State :=
  match (s.unit u).state with
  | .offline | .draining => s
  | .opened =>
    match (s.unit u).mark with
    | some i =>
      if s.holders u = [i] then ((s.clearMark u).setMode i .exclusive).post .upgraded i else s
    | none =>
      let s := s.stageB own u
      if (s.holders u).isEmpty then s.stageC own u else s

/-- One visit of a pool grant pass: stage C on an OPEN member without a holder (R79). -/
def State.offer (s : State) (own : Option SlotId) (p : PoolId) (u : UnitId) : State :=
  if (s.unit u).config.pool = some p ∧ (s.unit u).state = .opened ∧ (s.holders u).isEmpty = true then s.stageC own u
  else s

/-- A pool grant pass on pool p visits its members in ascending unit number (R79). -/
def State.poolPass (s : State) (own : Option SlotId) (p : PoolId) : State :=
  allUnits.foldl (fun s u => s.offer own p u) s

/-- The pass on a target: a unit grant pass or a pool grant pass. -/
def State.passOn (s : State) (own : Option SlotId) (t : Target) : State :=
  match t with
  | .unit u => s.unitPass own u
  | .pool p => s.poolPass own p

/-- Unit grant passes on several units, in order (R69). -/
def State.unitPasses (s : State) (us : List UnitId) : State := us.foldl (fun s u => s.unitPass none u) s

/-- Pool grant passes on several pools, in order (R69). -/
def State.poolPasses (s : State) (ps : List PoolId) : State := ps.foldl (fun s p => s.poolPass none p) s

/-! ### Departures, the end of a drain and the end of a walk -/

/-- The drain of unit u completes if u is DRAINING and its holder set is empty: u becomes OFFLINE and enters the drained
set (R162). -/
def State.completeDrain (s : State) (u : UnitId) : State :=
  if (s.unit u).state = .draining ∧ (s.holders u).isEmpty = true then
    (s.setUnit u { s.unit u with state := .offline }).addDrained u
  else s

/-- The walk of agent a ends if a is DETACHING and has no record left: a becomes DETACHED, its held flag is cleared, its
station reads OK with response words 0, and a enters the detached set (R145). -/
def State.endWalk (s : State) (a : AgentId) : State :=
  if s.busy a = true ∧ s.recordCount a = 0 then
    ((s.setAgent a { s.agent a with state := .detached, held := false }).answer a (.ok 0 0)).addDetached a
  else s

/-- The record r in slot i leaves the queue it waits in, or gives up its unit's pending-upgrade mark (R35, R6). -/
def State.leavePlace (s : State) (i : SlotId) (r : Record) : State :=
  match r.standing with
  | .waiting t _ _ => s.dequeue t i
  | .held u _ _ => s.clearMarkOf u i
  | .recalled u _ _ => s.clearMarkOf u i
  | .spent .. => s

/-- The pass that the departure of r calls, and the completion of a drain after a holder's departure (R6, R7, R35,
R162). A SPENT record stands nowhere, so its end calls none. -/
def State.afterDeparture (s : State) (r : Record) : State :=
  match r.standing with
  | .waiting t _ _ => s.passOn none t
  | .held u _ _ => (s.unitPass none u).completeDrain u
  | .recalled u _ _ => (s.unitPass none u).completeDrain u
  | .spent .. => s

/-- The record r in slot i is removed: it leaves its place, its unread entry is withdrawn, the slot becomes FREE with
its serial kept, and its agent's walk ends if this was the last record (R35 steps 1 to 3, R145). -/
def State.remove (s : State) (i : SlotId) (r : Record) : State :=
  (((s.leavePlace i r).withdrawEntry r.agent i).loadRecord i none).endWalk r.agent

/-- The record in slot i is retired: it is removed, and then the pass that its departure calls runs (R35). -/
def State.retire (s : State) (i : SlotId) : State :=
  match s.record i with
  | none => s
  | some r => (s.remove i r).afterDeparture r

/-- The notice that reports a spent cause (Table 7-2). -/
def SpentCause.notice : SpentCause → NoticeKind
  | .expired => .expired
  | .revoked => .revoked
  | .timedOut => .timedOut
  | .withdrawn => .withdrawn

/-- The record r in slot i becomes SPENT: it leaves its place, its depth, countdown and requested duration are dropped,
and the notice of its cause is posted (R29). -/
def State.markSpent (s : State) (i : SlotId) (r : Record) (cause : SpentCause) : State :=
  ((s.leavePlace i r).loadRecord i (some { r with standing := .spent r.standing.claim cause })).post cause.notice i

/-- The record in slot i becomes SPENT with the cause, or is retired if its agent is not ATTACHED; the pass that its
departure calls follows (R29, R37, R113 to R115). -/
def State.spend (s : State) (i : SlotId) (cause : SpentCause) : State :=
  match s.record i with
  | none => s
  | some r => if s.isAttached r.agent then (s.markSpent i r cause).afterDeparture r else s.retire i

/-- The HELD record r in slot i, on unit u, becomes RECALLED with the unit's grace; its mark is cleared and RECALLED is
posted (R158 steps 1 and 2). -/
def State.markRecalled (s : State) (i : SlotId) (r : Record) (u : UnitId) (depth : Nat) : State :=
  ((s.clearMarkOf u i).loadRecord i (some { r with standing := .recalled u depth (s.unit u).config.grace })).post
    .recalled i

/-- The recall of the HELD record in slot i, with its unit's recall grace; any other record is left as it is (R158). -/
def State.recall (s : State) (i : SlotId) : State :=
  match s.record i with
  | none => s
  | some r =>
    match r.standing with
    | .held u depth _ =>
      if (s.unit u).config.grace = 0 then s.spend i .revoked
      else if (s.unit u).mark = some i then (s.markRecalled i r u depth).unitPass none u
      else s.markRecalled i r u depth
    | .waiting .. | .recalled .. | .spent .. => s

/-! ### Allocation and handles (chapter 2) -/

/-- The lowest-numbered FREE slot (R31). -/
def State.freeSlot (s : State) : Option SlotId := allSlots.find? fun i => (s.record i).isNone

/-- Slot i is allocated to a new WAITING record, under the next serial, at the tail of its target's queue (R31, R50,
R54). -/
def State.allocate (s : State) (i : SlotId) (a : AgentId) (mode : Mode) (t : Target) (requested waitLimit : Nat) : State :=
  let countdown := if waitLimit = 0 ∨ waitLimit = 4095 then none else some waitLimit
  let record : Record := { agent := a, mode := mode, standing := .waiting t requested countdown }
  let s := s.setSlot i { serial := (s.slot i).serial + 1, record := some record }
  match t with
  | .unit u => s.setUnit u { s.unit u with queue := (s.unit u).queue ++ [i] }
  | .pool p => s.setPool p { s.pool p with queue := (s.pool p).queue ++ [i] }

/-- The handle check on ARG0 15:0: the slot and its record, if the handle names a live record of agent a (R33). -/
def State.checkHandle (s : State) (a : AgentId) (arg0 : Word) : Option (SlotId × Record) :=
  match slotOf (bitField arg0 0 8) with
  | none => none
  | some i =>
    match s.record i with
    | none => none
    | some r => if (s.slot i).serial.toNat = bitField arg0 8 8 ∧ r.agent = a then some (i, r) else none

/-! ### The detach walk (chapter 8) -/

/-- The slots of agent a's SPENT records. -/
def State.spentOf (s : State) (a : AgentId) : List SlotId :=
  allSlots.filter fun i => (s.record i).any fun r => r.agent == a && r.isSpent

/-- The walk of agent a begins: a becomes DETACHING, its station BUSY, its notice queue is emptied and its SPENT records
are retired; a walk with nothing left to do ends in the same event (R132, R141). -/
def State.beginWalk (s : State) (a : AgentId) : State :=
  let s := (s.setAgent a { s.agent a with state := .detaching }).answer a (.ok 0 0)
  let s := s.setNotice a { s.notice a with entries := [] }
  let s := (s.spentOf a).foldl (fun s i => s.loadRecord i none) s
  s.endWalk a

/-! ### Taking commands and events -/

/-- The result of a command or an event: the spec always gives a next state. -/
abbrev Result := Host.Outcome State Fault Refusal

/-- Agent `aid` writes CMD at its own station with a code that names a command. While RST_N is asserted the write is
ignored (R170); at a BUSY station it is discarded (R146); otherwise the command is taken and CMD reads back its code
(R172). -/
def atAgentStation (code : Word) (aid : AgentId) (body : State → State) (s : State) : Result :=
  let s := s.quiet
  if s.inReset = true ∨ s.busy aid = true then .next s
  else .next (body (s.setStation aid { s.station aid with cmd := code }))

/-- A discarded access to the control window: nothing changes and ERR_N is asserted for its length (R171). -/
def State.refuseAccess (s : State) : State := s.setPort { err := true, data := none }

/-- Agent `aid` writes CMD in the control window with a code that names a control command: ignored while RST_N is
asserted (R170), discarded unless `aid` is the supervisor agent (R171), otherwise taken (R154, R172). -/
def atControlStation (code : Word) (aid : AgentId) (body : State → State) (s : State) : Result :=
  let s := s.quiet
  if s.inReset = true then .next s
  else if aid = s.supervisor then .next (body (s.setControl { s.control with cmd := code }))
  else .next s.refuseAccess

/-- An event of the part itself: none happens while RST_N holds the part in reset (R178). -/
def asEvent (body : State → State) (s : State) : Result :=
  let s := s.quiet
  if s.inReset = true then .next s else .next (body s)

end Sys2Proof.Machine
end

