-- ==== Sys2Proof/Machine/Acquire.lean ====
section
/-! DEFINITION. ACQUIRE, ACQUIRE_ANY and CANCEL (spec/03, and rule R103 of spec/05). -/

namespace Sys2Proof.Machine

/-- What the checks of a request come to: a refusal, a nested hold on the record in a slot, or a new record in a FREE
slot. -/
inductive RequestCase where
  | refused (reason location : Nat)
  | nested (i : SlotId)
  | create (i : SlotId) (mode : Mode) (target : Target) (requested waitLimit : Nat)
  deriving DecidableEq, Repr

/-- The quota and store tests, the last ones of a request (R38, R39, R49). -/
def State.requestSlot (s : State) (aid : AgentId) (mode : Mode) (t : Target) (requested waitLimit : Nat) : RequestCase :=
  if (s.agent aid).quota ≤ s.recordCount aid then .refused Reason.quota aid.val
  else match s.freeSlot with
    | none => .refused Reason.noRecord 0
    | some i => .create i mode t requested waitLimit

/-- Steps 6 to 10 of Table 3-2, on an OPEN unit that the band permits (R47 to R49). -/
def State.acquireOpen (s : State) (aid : AgentId) (u : UnitId) (mode : Mode) (requested waitLimit : Nat) : RequestCase :=
  let hold := s.holderOf aid u
  if mode = .shared ∧ (s.unit u).config.capacity = 1 then .refused Reason.mode u.val
  else if mode = .exclusive ∧ hold.any s.isShared = true then .refused Reason.mode u.val
  else match hold with
    | some i =>
      match (s.record i).map Record.standing with
      | some (.held _ depth _) => if 15 ≤ depth then .refused Reason.depth u.val else .nested i
      | _ => .refused Reason.recalled u.val  -- a holder that is not HELD is RECALLED
    | none =>
      if s.waitsIn aid (s.unit u).queue then .refused Reason.alreadyWaiting u.val
      else s.requestSlot aid mode (.unit u) requested waitLimit

/-- The tests of Table 3-2 in their order, on the argument words of agent aid's station (R44 to R49). -/
def State.acquireCase (s : State) (aid : AgentId) : RequestCase :=
  let st := s.station aid
  let duration := bitField st.arg1 0 16
  let waitLimit := bitField st.arg2 0 16
  if s.isAttached aid = false then .refused Reason.notAttached aid.val
  else match modeOf (bitField st.arg0 8 2) with
    | none => .refused Reason.badArgument 0
    | some mode =>
      if 4095 < duration ∨ 4095 < waitLimit then .refused Reason.badArgument 0
      else match unitOf (bitField st.arg0 0 8) with
        | none => .refused Reason.noUnit 0
        | some u =>
          match (s.unit u).state with
          | .offline => .refused Reason.noUnit u.val
          | .draining => .refused Reason.unitState u.val
          | .opened =>
            if s.bandPermits aid u then s.acquireOpen aid u mode duration waitLimit
            else .refused Reason.band u.val

/-- The tests of ACQUIRE_ANY in their order (R53). -/
def State.acquireAnyCase (s : State) (aid : AgentId) : RequestCase :=
  let st := s.station aid
  let duration := bitField st.arg1 0 16
  let waitLimit := bitField st.arg2 0 16
  if s.isAttached aid = false then .refused Reason.notAttached aid.val
  else if 4095 < duration ∨ 4095 < waitLimit then .refused Reason.badArgument 0
  else match poolOf (bitField st.arg0 0 8) with
    | none => .refused Reason.noPool 0
    | some p =>
      if (s.members p).isEmpty then .refused Reason.noPool p.val
      else if s.waitsIn aid (s.pool p).queue then .refused Reason.alreadyWaiting p.val
      else s.requestSlot aid .exclusive (.pool p) duration waitLimit

/-- The GRANTED answer about the record in slot i: handle and unit, and the whole record status word, as the example of
Table 10-8 shows it (Table 3-3, Table 10-5; notes/assumptions/14.md). -/
def State.grantedAnswer (s : State) (i : SlotId) (r : Record) : Answer :=
  ⟨.granted, recordWord (s.handle i) r.target, s.statusWord i r⟩

/-- A nested hold: the depth of the HELD record in slot i rises by 1, and nothing else of it changes (R48). -/
def State.deepen (s : State) (i : SlotId) : State :=
  match s.record i with
  | none => s
  | some r =>
    match r.standing with
    | .held u depth c => s.writeRecord i (some { r with standing := .held u (depth + 1) c })
    | .waiting .. | .recalled .. | .spent .. => s

/-- The answer to a created request, after its own pass: GRANTED; or QUEUED; or, for a one-time try, retirement and
UNAVAILABLE with the target as location (R36, R51, R54). -/
def State.answerRequest (s : State) (aid : AgentId) (i : SlotId) (t : Target) (waitLimit : Nat) : State :=
  match s.record i with
  | none => s.answer aid (.refuse Reason.unavailable t.number)
  | some r =>
    if r.isWaiting = false then s.answer aid (s.grantedAnswer i r)
    else if waitLimit = 0 then (s.retire i).answer aid (.refuse Reason.unavailable t.number)
    else s.answer aid ⟨.queued, recordWord (s.handle i) t, 0⟩

/-- A request is carried out as its checks decided: refused, nested, or created with its own grant pass (R48, R50,
R54). -/
def State.takeRequest (s : State) (aid : AgentId) (c : RequestCase) : State :=
  match c with
  | .refused reason location => s.answer aid (.refuse reason location)
  | .nested i =>
    let s := s.deepen i
    match s.record i with
    | none => s
    | some r => s.answer aid (s.grantedAnswer i r)
  | .create i mode t requested waitLimit =>
    ((s.allocate i aid mode t requested waitLimit).passOn (some i) t).answerRequest aid i t waitLimit

/-- ACQUIRE (R44 to R52, R59). -/
def execAcquire (aid : AgentId) (s : State) : Result :=
  atAgentStation 0x03 aid (fun s => s.takeRequest aid (s.acquireCase aid)) s

/-- ACQUIRE_ANY (R53, R54, R59). -/
def execAcquireAny (aid : AgentId) (s : State) : Result :=
  atAgentStation 0x04 aid (fun s => s.takeRequest aid (s.acquireAnyCase aid)) s

/-- A command that names a record by handle: refused NOT_ATTACHED, answered STALE, or taken on the record (R33, R89). -/
def State.withHandle (s : State) (aid : AgentId) (body : SlotId → Record → State) : State :=
  if s.isAttached aid = false then s.answer aid (.refuse Reason.notAttached aid.val)
  else match s.checkHandle aid (s.station aid).arg0 with
    | none => s.answer aid .stale
    | some (i, r) => body i r

/-- The LAPSED answer about a SPENT record: its target and its spent cause (R65, R89, R93). -/
def Record.lapsedAnswer (r : Record) : Answer := ⟨.lapsed, r.target.word, place 12 3 r.standing.causeNo⟩

/-- The ALREADY_GRANTED answer to CANCEL: the record's unit and its state (R64). -/
def Record.alreadyGrantedAnswer (r : Record) : Answer :=
  ⟨.alreadyGranted, r.target.word, place 0 3 r.standing.stateNo⟩

/-- CANCEL on the record in slot i, by its state (R63 to R65, R103, Table 3-5). -/
def State.cancelRecord (s : State) (aid : AgentId) (i : SlotId) (r : Record) : State :=
  match r.standing with
  | .waiting .. => (s.retire i).answer aid (.ok 0 0)
  | .held u _ _ =>
    if s.upgradePending i then
      ((s.clearMark u).unitPass none u).answer aid (.ok r.target.word 0)
    else s.answer aid r.alreadyGrantedAnswer
  | .recalled .. => s.answer aid r.alreadyGrantedAnswer
  | .spent .. => (s.retire i).answer aid r.lapsedAnswer

/-- CANCEL. -/
def execCancel (aid : AgentId) (s : State) : Result :=
  atAgentStation 0x09 aid (fun s => s.withHandle aid (s.cancelRecord aid)) s

end Sys2Proof.Machine
end

