-- ==== Sys2Proof/Machine/Holding.lean ====
section
/-! DEFINITION. RELEASE, RENEW, UPGRADE and DOWNGRADE (spec/05). -/

namespace Sys2Proof.Machine

/-- NOT_HOLDER: the record is WAITING; its target is the location (R89). -/
def State.refuseNotHolder (s : State) (aid : AgentId) (r : Record) : State :=
  s.answer aid (.refuse Reason.notHolder r.target.number)

/-- RELEASE on the record in slot i (R90 to R93). -/
def State.releaseRecord (s : State) (aid : AgentId) (i : SlotId) (r : Record) : State :=
  match flagOf (bitField (s.station aid).arg1 0 2) with
  | none => s.answer aid (.refuse Reason.badArgument 0)
  | some full =>
    match r.standing with
    | .waiting .. => s.refuseNotHolder aid r
    | .held u depth c =>
      let left := if full then 0 else depth - 1
      if left = 0 then (s.retire i).answer aid (.ok r.target.word 0)
      else
        (s.writeRecord i (some { r with standing := .held u left c })).answer aid (.ok r.target.word (place 8 4 left))
    | .recalled .. => (s.retire i).answer aid (.ok r.target.word 0)
    | .spent .. => (s.retire i).answer aid r.lapsedAnswer

/-- RELEASE. -/
def execRelease (aid : AgentId) (s : State) : Result :=
  atAgentStation 0x05 aid (fun s => s.withHandle aid (s.releaseRecord aid)) s

/-- RENEW on the record in slot i (R96, R97). -/
def State.renewRecord (s : State) (aid : AgentId) (i : SlotId) (r : Record) : State :=
  let duration := bitField (s.station aid).arg1 0 16
  if 4095 < duration then s.answer aid (.refuse Reason.badArgument 0)
  else match r.standing with
    | .waiting .. => s.refuseNotHolder aid r
    | .held u depth _ =>
      let c := effectiveDuration duration (s.unit u).config.limit
      (s.loadRecord i (some { r with standing := .held u depth c })).answer aid
        (.ok r.target.word (place 16 12 (c.getD 0)))
    | .recalled u _ _ => s.answer aid (.refuse Reason.recalled u.val)
    | .spent .. => s.answer aid r.lapsedAnswer

/-- RENEW. -/
def execRenew (aid : AgentId) (s : State) : Result :=
  atAgentStation 0x06 aid (fun s => s.withHandle aid (s.renewRecord aid)) s

/-- UPGRADE of the HELD SHARED record in slot i on unit u (R98, R99): the OK answer gives the unit and the mode, QUEUED
the handle and the unit. A mark that names the upgraded record goes with the upgrade, as R8 gives for every event that
changes the record's mode. -/
def State.upgradeShared (s : State) (aid : AgentId) (i : SlotId) (r : Record) (u : UnitId) : State :=
  let queued : Answer := ⟨.queued, recordWord (s.handle i) r.target, 0⟩
  if s.holders u = [i] then
    ((s.clearMarkOf u i).setMode i .exclusive).answer aid (.ok r.target.word (place 6 1 Mode.exclusive.no))
  else match (s.unit u).mark with
    | none => (s.setUnit u { s.unit u with mark := some i }).answer aid queued
    | some j => if j = i then s.answer aid queued else s.answer aid (.refuse Reason.conflict u.val)

/-- UPGRADE on the record in slot i (R89, R98). -/
def State.upgradeRecord (s : State) (aid : AgentId) (i : SlotId) (r : Record) : State :=
  match r.standing with
  | .waiting .. => s.refuseNotHolder aid r
  | .held u _ _ =>
    match r.mode with
    | .exclusive => s.answer aid (.refuse Reason.mode u.val)
    | .shared => s.upgradeShared aid i r u
  | .recalled u _ _ => s.answer aid (.refuse Reason.recalled u.val)
  | .spent .. => s.answer aid r.lapsedAnswer

/-- UPGRADE. -/
def execUpgrade (aid : AgentId) (s : State) : Result :=
  atAgentStation 0x07 aid (fun s => s.withHandle aid (s.upgradeRecord aid)) s

/-- DOWNGRADE on the record in slot i (R89, R105). -/
def State.downgradeRecord (s : State) (aid : AgentId) (i : SlotId) (r : Record) : State :=
  match r.standing with
  | .waiting .. => s.refuseNotHolder aid r
  | .held u _ _ =>
    match r.mode with
    | .shared => s.answer aid (.refuse Reason.mode u.val)
    | .exclusive =>
      if (s.unit u).config.capacity ≤ 1 then s.answer aid (.refuse Reason.mode u.val)
      else ((s.setMode i .shared).unitPass none u).answer aid (.ok r.target.word 0)
  | .recalled u _ _ => s.answer aid (.refuse Reason.recalled u.val)
  | .spent .. => s.answer aid r.lapsedAnswer

/-- DOWNGRADE. -/
def execDowngrade (aid : AgentId) (s : State) : Result :=
  atAgentStation 0x08 aid (fun s => s.withHandle aid (s.downgradeRecord aid)) s

end Sys2Proof.Machine
end

