-- ==== Sys2Proof/Machine/Notices.lean ====
section
/-! DEFINITION. NEXT_NOTICE and SET_ATTENTION (spec/07). -/

namespace Sys2Proof.Machine

/-- The oldest entry n leaves agent aid's queue, with `rest` left behind; if its record is SPENT the record is retired,
and no pass follows; the entry is answered (R128). -/
def State.readNotice (s : State) (aid : AgentId) (n : Notice) (rest : List Notice) : State :=
  let s := s.setNotice aid { s.notice aid with entries := rest }
  let spent := s.handle n.handle.slot == n.handle && (s.record n.handle.slot).any Record.isSpent
  let s := if spent then s.retire n.handle.slot else s
  s.answer aid (.ok (noticeWord n rest.length) 0)

/-- NEXT_NOTICE (R128). -/
def execNextNotice (aid : AgentId) (s : State) : Result :=
  atAgentStation 0x0D aid (fun s =>
    if s.isAttached aid = false then s.answer aid (.refuse Reason.notAttached aid.val)
    else match (s.notice aid).entries with
      | [] => s.answer aid (.ok 0 0)
      | n :: rest => s.readNotice aid n rest) s

/-- SET_ATTENTION (R130); ATN_N follows through `State.atn`. -/
def execSetAttention (aid : AgentId) (s : State) : Result :=
  atAgentStation 0x0E aid (fun s =>
    if s.isAttached aid = false then s.answer aid (.refuse Reason.notAttached aid.val)
    else match flagOf (bitField (s.station aid).arg0 0 2) with
      | none => s.answer aid (.refuse Reason.badArgument 0)
      | some on =>
        (s.setNotice aid { s.notice aid with attention := on }).answer aid
          (.ok (place 0 1 (flagNo on) ||| place 8 4 (s.notice aid).entries.length) 0)) s

end Sys2Proof.Machine
end

