-- ==== Sys2Proof/Machine/Queries.lean ====
section
/-! DEFINITION. The commands that read and change nothing but the answer: QUERY_LEASE, QUERY_UNIT, PROBE (agent
stations) and INSPECT_RECORD, LIST_HOLDER (control station). -/

namespace Sys2Proof.Machine

/-- QUERY_LEASE: the items of Table 2-5, which are the target and the whole record status word (R40, R175). -/
def execQueryLease (aid : AgentId) (s : State) : Result :=
  atAgentStation 0x0A aid (fun s => s.withHandle aid fun i r =>
    s.answer aid (.ok r.target.word (s.statusWord i r))) s

/-- A command at agent aid's station that names a unit in ARG0 7:0 and reads it: refused NOT_ATTACHED, or NO_UNIT with
location 0, or answered (R17, R88). -/
def State.readUnit (s : State) (aid : AgentId) (answer : UnitId → Answer) : State :=
  if s.isAttached aid = false then s.answer aid (.refuse Reason.notAttached aid.val)
  else match unitOf (bitField (s.station aid).arg0 0 8) with
    | none => s.answer aid (.refuse Reason.noUnit 0)
    | some u => s.answer aid (answer u)

/-- The QUERY_UNIT answer (R17, Table 1-5, Table 10-5). -/
def State.unitAnswer (s : State) (u : UnitId) : Answer :=
  let x := s.unit u
  .ok (place 0 2 x.state.no ||| place 4 3 (s.holders u).length ||| place 8 2 (holderModeNo (s.holderMode u)) |||
    place 16 5 x.queue.length ||| place 24 1 (flagNo x.mark.isSome) ||| place 28 4 x.bottom.val) 0

/-- QUERY_UNIT. -/
def execQueryUnit (aid : AgentId) (s : State) : Result :=
  atAgentStation 0x0B aid (fun s => s.readUnit aid s.unitAnswer) s

/-- The highest-ranked eligible waiter of unit u's queue (R88). -/
def State.headWaiter (s : State) (u : UnitId) : Option SlotId :=
  let x := s.unit u
  (s.rank x.config.order x.bottom x.queue).find? fun i => s.eligible i u

/-- What keeps the reported waiter waiting: 0 NONE, 1 HOLDERS, 2 UPGRADE (R88, Table 10-3). -/
def State.probeReason (s : State) (u : UnitId) (i : SlotId) : Nat :=
  if (s.unit u).mark.isSome then 2 else if s.fits i u then 0 else 1

/-- The PROBE answer (R88, Table 4-6, Table 10-5). -/
def State.probeAnswer (s : State) (u : UnitId) : Answer :=
  match s.headWaiter u with
  | none => .ok 0 0
  | some i =>
    match s.record i with
    | none => .ok 0 0
    | some r =>
      .ok (presentWord (s.handle i) r.agent)
        (place 6 1 r.mode.no ||| place 16 2 (s.probeReason u i))

/-- PROBE. -/
def execProbe (aid : AgentId) (s : State) : Result :=
  atAgentStation 0x0C aid (fun s => s.readUnit aid s.probeAnswer) s

/-- The INSPECT_RECORD answer about slot i (R41, Table 10-5): a FREE slot reads its serial and state FREE. -/
def State.inspectAnswer (s : State) (i : SlotId) : Answer :=
  let serial := place 0 8 (s.slot i).serial.toNat
  match s.record i with
  | none => .ok serial 0
  | some r =>
    let requested := match r.standing with
      | .waiting _ d _ => d
      | .held .. | .recalled .. | .spent .. => 0
    .ok (serial ||| place 8 4 r.agent.val ||| place 12 12 requested ||| place 24 6 r.target.number |||
      place 31 1 (flagNo (s.hasEntry r.agent i))) (s.statusWord i r)

/-- INSPECT_RECORD (R41). -/
def execInspectRecord (aid : AgentId) (s : State) : Result :=
  atControlStation 0x34 aid (fun s =>
    match slotOf (bitField s.control.arg0 0 8) with
    | none => s.answerControl (.refuse Reason.badArgument 0)
    | some i => s.answerControl (s.inspectAnswer i)) s

/-- The LIST_HOLDER answer about the holder of unit u that an index selects in ascending slot order: present mark, handle,
agent, mode, state, depth and upgrade pending (R18). -/
def State.holderAnswer (s : State) (u : UnitId) (index : Nat) : Answer :=
  match (s.holders u)[index]? with
  | none => .ok 0 0
  | some i =>
    match s.record i with
    | none => .ok 0 0
    | some r => .ok (presentWord (s.handle i) r.agent) (s.holderWord i r)

/-- LIST_HOLDER (R18). -/
def execListHolder (aid : AgentId) (s : State) : Result :=
  atControlStation 0x35 aid (fun s =>
    match unitOf (bitField s.control.arg0 0 8) with
    | none => s.answerControl (.refuse Reason.noUnit 0)
    | some u =>
      let index := bitField s.control.arg1 0 8
      if 3 < index then s.answerControl (.refuse Reason.badArgument u.val)
      else s.answerControl (s.holderAnswer u index)) s

end Sys2Proof.Machine
end

