-- ==== Sys2Proof/Machine/Sessions.lean ====
section
/-! DEFINITION. Agent sessions (spec/08): ATTACH, DETACH, DETACH_AGENT, HOLD_AGENT, RESUME_AGENT, SET_QUOTA, the steps of
the detach walk and its end. -/

namespace Sys2Proof.Machine

/-- ATTACH (R138, R130). -/
def execAttach (aid : AgentId) (s : State) : Result :=
  atAgentStation 0x01 aid (fun s =>
    let a := s.agent aid
    match a.state with
    | .attached => s.answer aid (.refuse Reason.alreadyAttached aid.val)
    | .detaching => s.answer aid (.refuse Reason.detaching aid.val)
    | .detached =>
      if a.quota = 0 then s.answer aid (.refuse Reason.quota aid.val)
      else
        ((s.setAgent aid { a with state := .attached, held := false }).setNotice aid
          { s.notice aid with attention := true }).answer aid
          (.ok (place 0 4 a.quota ||| place 8 1 (flagNo (s.clearance aid))) 0)) s

/-- DETACH (R139). A DETACHING agent cannot present it: its station is BUSY and the write is discarded (R136). -/
def execDetach (aid : AgentId) (s : State) : Result :=
  atAgentStation 0x02 aid (fun s =>
    if s.isAttached aid then s.beginWalk aid else s.answer aid (.refuse Reason.notAttached aid.val)) s

/-- The checks shared by DETACH_AGENT, HOLD_AGENT and RESUME_AGENT on the agent named in ARG0 7:0 (R140, R149, R150). -/
def State.onAttachedAgent (s : State) (body : AgentId → State) : State :=
  match agentOf (bitField s.control.arg0 0 8) with
  | none => s.answerControl (.refuse Reason.badArgument 0)
  | some a =>
    match (s.agent a).state with
    | .detached => s.answerControl (.refuse Reason.notAttached a.val)
    | .detaching => s.answerControl (.refuse Reason.detaching a.val)
    | .attached => body a

/-- DETACH_AGENT (R140): the named agent's CMD reads 0 from the start of a walk that DETACH_AGENT began (R173). -/
def execDetachAgent (aid : AgentId) (s : State) : Result :=
  atControlStation 0x2E aid (fun s => s.onAttachedAgent fun a =>
    ((s.setStation a { s.station a with cmd := 0 }).beginWalk a).answerControl (.ok 0 0)) s

/-- The units in whose queue agent a has a WAITING record, in ascending number (R69). -/
def State.unitsWaitedFor (s : State) (a : AgentId) : List UnitId :=
  allUnits.filter fun u => s.waitsIn a (s.unit u).queue

/-- The pools in whose queue agent a has a WAITING record, in ascending number (R69). -/
def State.poolsWaitedFor (s : State) (a : AgentId) : List PoolId :=
  allPools.filter fun p => s.waitsIn a (s.pool p).queue

/-- OK with the number of WAITING records the agent has after the passes (R149, R150). -/
def State.answerWaits (s : State) (a : AgentId) : State :=
  s.answerControl (.ok (place 0 4 (s.waitsOf a).length) 0)

/-- HOLD_AGENT (R149): the units are read before the passes run (R69). Where the flag is already set the rule gives no
item, so both response words read 0 (R175). -/
def execHoldAgent (aid : AgentId) (s : State) : Result :=
  atControlStation 0x2C aid (fun s => s.onAttachedAgent fun a =>
    if (s.agent a).held then s.answerControl (.ok 0 0)
    else ((s.setAgent a { s.agent a with held := true }).unitPasses (s.unitsWaitedFor a)).answerWaits a) s

/-- RESUME_AGENT (R150): unit passes, then pool passes, on the waits read before them (R69). Where the flag is already
clear the rule gives no item, so both response words read 0 (R175). -/
def execResumeAgent (aid : AgentId) (s : State) : Result :=
  atControlStation 0x2D aid (fun s => s.onAttachedAgent fun a =>
    if (s.agent a).held then
      (((s.setAgent a { s.agent a with held := false }).unitPasses (s.unitsWaitedFor a)).poolPasses
        (s.poolsWaitedFor a)).answerWaits a
    else s.answerControl (.ok 0 0)) s

/-- SET_QUOTA (R151). -/
def execSetQuota (aid : AgentId) (s : State) : Result :=
  atControlStation 0x25 aid (fun s =>
    if s.frozen then s.answerControl (.refuse Reason.frozen 0)
    else match agentOf (bitField s.control.arg0 0 8) with
      | none => s.answerControl (.refuse Reason.badArgument 0)
      | some a =>
        let quota := bitField s.control.arg1 0 8
        if 8 < quota then s.answerControl (.refuse Reason.badArgument a.val)
        else if quota < s.recordCount a then s.answerControl (.refuse Reason.quotaInUse a.val)
        else (s.setAgent a { s.agent a with quota := quota }).answerControl
          (.ok (place 0 4 quota ||| place 8 4 (s.recordCount a)) 0)) s

/-- WITHDRAWAL_STEP of agent a's walk: its WAITING record in the lowest slot is retired (R142). Where a is not
DETACHING or has no WAITING record there is no such step. -/
def execWithdrawalStep (a : AgentId) (s : State) : Result :=
  asEvent (fun s =>
    if s.busy a then
      match s.waitsOf a with
      | [] => s
      | i :: _ => s.retire i
    else s) s

/-- HOLDING_STEP of agent a's walk: once a has no WAITING record, its holder record on the lowest-numbered unit is
retired whatever its depth (R143). Otherwise there is no such step. -/
def execHoldingStep (a : AgentId) (s : State) : Result :=
  asEvent (fun s =>
    if s.busy a = true ∧ s.waitsOf a = [] then
      match allUnits.findSome? (s.holderOf a) with
      | none => s
      | some i => s.retire i
    else s) s

/-- WALK_END of agent a: a DETACHING agent with no record left becomes DETACHED (R145). -/
def execWalkEnd (a : AgentId) (s : State) : Result := asEvent (fun s => s.endWalk a) s

end Sys2Proof.Machine
end

