-- ==== Sys2Proof/Machine/Supervisor.lean ====
section
/-! DEFINITION. Supervisory control (spec/09): the band, recall, drain, completion sets, freeze and RESET_LIVE. -/

namespace Sys2Proof.Machine

/-- A holder of unit u, or a WAITING record in its queue, belongs to an agent that the test names (R156, R157). -/
def State.occupiedBy (s : State) (u : UnitId) (test : AgentId → Bool) : Bool :=
  (s.holders u).any (fun i => (s.owner i).any test) ||
    (s.unit u).queue.any fun i => (s.record i).any fun r => r.isWaiting && test r.agent

/-- The units numbered from `low` to below `high`, in ascending number. -/
def unitsFrom (low high : Nat) : List UnitId := allUnits.filter fun u => decide (low ≤ u.val ∧ u.val < high)

/-- The pools with a member among the units, in ascending number (R69). -/
def State.poolsOf (s : State) (us : List UnitId) : List PoolId :=
  allPools.filter fun p => us.any fun u => (s.unit u).config.pool == some p

/-- SET_BAND to the ceiling c (R156). -/
def State.setCeiling (s : State) (c : Nat) : State :=
  if s.ceiling ≤ c then
    let range := unitsFrom s.ceiling c
    ((({ s with ceiling := c } : State).unitPasses range).poolPasses (s.poolsOf range)).answerControl
      (.ok (place 0 7 c) 0)
  else match (unitsFrom c s.ceiling).find? fun u => s.occupiedBy u fun a => !s.clearance a with
    | some u => s.answerControl (.refuse Reason.bandOccupied u.val)
    | none => ({ s with ceiling := c } : State).answerControl (.ok (place 0 7 c) 0)

/-- SET_BAND (R156); a ceiling equal to the one in force spans no unit and changes nothing. -/
def execSetBand (aid : AgentId) (s : State) : Result :=
  atControlStation 0x23 aid (fun s =>
    if s.frozen then s.answerControl (.refuse Reason.frozen 0)
    else
      let c := bitField s.control.arg0 0 8
      if 64 < c then s.answerControl (.refuse Reason.badArgument 0) else s.setCeiling c) s

/-- OK with the agent and its clearance now in force (R157). -/
def clearanceAnswer (a : AgentId) (yes : Bool) : Answer := .ok (place 0 4 a.val ||| place 8 1 (flagNo yes)) 0

/-- SET_CLEARANCE of agent a to a value (R157). -/
def State.writeClearance (s : State) (a : AgentId) (yes : Bool) : State :=
  let written := s.setAgent a { s.agent a with clearance := yes }
  let waits := allPools.filter fun p => s.waitsIn a (s.pool p).queue
  if s.clearance a = yes then s.answerControl (clearanceAnswer a yes)
  else if yes then (written.poolPasses waits).answerControl (clearanceAnswer a true)
  else match (unitsFrom s.ceiling 64).find? fun u => s.occupiedBy u fun b => b == a with
    | some u => s.answerControl (.refuse Reason.bandOccupied u.val)
    | none => written.answerControl (clearanceAnswer a false)

/-- SET_CLEARANCE (R157). -/
def execSetClearance (aid : AgentId) (s : State) : Result :=
  atControlStation 0x24 aid (fun s =>
    if s.frozen then s.answerControl (.refuse Reason.frozen 0)
    else match agentOf (bitField s.control.arg0 0 8) with
      | none => s.answerControl (.refuse Reason.badArgument 0)
      | some a =>
        match flagOf (bitField s.control.arg1 0 2) with
        | none => s.answerControl (.refuse Reason.badArgument a.val)
        | some yes =>
          if a = s.supervisor ∧ yes = false then s.answerControl (.refuse Reason.badArgument a.val)
          else s.writeClearance a yes) s

/-- The state number of whatever occupies slot i now: 0 FREE, or the record's (Table 10-3). -/
def State.slotStateNo (s : State) (i : SlotId) : Nat :=
  match s.record i with
  | none => 0
  | some r => r.standing.stateNo

/-- RECALL_LEASE on the record r in slot i (R159): a HELD record is recalled, a RECALLED one is left as it is. -/
def State.recallRecord (s : State) (i : SlotId) (r : Record) : State :=
  let word := recordWordWithAgent (s.handle i) r.target r.agent
  match r.standing with
  | .waiting .. => s.answerControl (.refuse Reason.notHolder r.target.number)
  | .spent .. => s.answerControl (.refuse Reason.notHolder r.target.number)
  | .held .. => (s.recall i).answerControl (.ok word (place 0 3 ((s.recall i).slotStateNo i)))
  | .recalled .. => s.answerControl (.ok word (place 0 3 r.standing.stateNo))

/-- RECALL_LEASE (R159). -/
def execRecallLease (aid : AgentId) (s : State) : Result :=
  atControlStation 0x2A aid (fun s =>
    match slotOf (bitField s.control.arg0 0 8) with
    | none => s.answerControl (.refuse Reason.badArgument 0)
    | some i =>
      match s.record i with
      | none => s.answerControl (.refuse Reason.notHolder 0)
      | some r => s.recallRecord i r) s

/-- The HELD holders of unit u, in ascending slot number (R160, R161). -/
def State.heldOn (s : State) (u : UnitId) : List SlotId :=
  allSlots.filter fun i => (s.record i).any fun r => r.isHeldOn u

/-- Several records are recalled in order, each whole with its pass before the next (R160). -/
def State.recallAll (s : State) (is : List SlotId) : State := is.foldl (fun s i => s.recall i) s

/-- How many of the records are RECALLED afterwards. -/
def State.countRecalled (s : State) (is : List SlotId) : Nat := is.countP fun i => s.slotStateNo i == 3

/-- RECALL_UNIT (R160): the list is read first, and what is not RECALLED afterwards was SPENT or retired. -/
def execRecallUnit (aid : AgentId) (s : State) : Result :=
  atControlStation 0x2B aid (fun s =>
    match unitOf (bitField s.control.arg0 0 8) with
    | none => s.answerControl (.refuse Reason.noUnit 0)
    | some u =>
      let list := s.heldOn u
      let s := s.recallAll list
      let recalled := s.countRecalled list
      s.answerControl (.ok (place 0 3 recalled ||| place 8 3 (list.length - recalled)) 0)) s

/-- The WAITING record in slot i is withdrawn: SPENT (WITHDRAWN), or retired; any other record is left as it is
(R161). -/
def State.withdraw (s : State) (i : SlotId) : State :=
  if (s.record i).any Record.isWaiting then s.spend i .withdrawn else s

/-- Several waiters are withdrawn in order (R161). -/
def State.withdrawAll (s : State) (is : List SlotId) : State := is.foldl (fun s i => s.withdraw i) s

/-- DRAIN_UNIT on the OPEN unit u, steps 1 to 5 of R161. -/
def State.drain (s : State) (u : UnitId) : State :=
  let waiters := (s.unit u).queue
  let s := s.setUnit u { s.unit u with state := .draining, mark := none }
  let s := s.withdrawAll waiters
  let held := s.heldOn u
  let s := (s.recallAll held).completeDrain u
  let recalled := s.countRecalled held
  s.answerControl
    (.ok (place 0 5 waiters.length ||| place 8 3 recalled ||| place 16 3 (held.length - recalled) |||
      place 24 2 (s.unit u).state.no) 0)

/-- DRAIN_UNIT (R161). -/
def execDrainUnit (aid : AgentId) (s : State) : Result :=
  atControlStation 0x28 aid (fun s =>
    match unitOf (bitField s.control.arg0 0 8) with
    | none => s.answerControl (.refuse Reason.noUnit 0)
    | some u =>
      if (s.unit u).state = .opened then s.drain u else s.answerControl (.refuse Reason.unitState u.val)) s

/-- RESTORE_UNIT (R163): the answer counts the holders still standing after the pass. -/
def execRestoreUnit (aid : AgentId) (s : State) : Result :=
  atControlStation 0x29 aid (fun s =>
    match unitOf (bitField s.control.arg0 0 8) with
    | none => s.answerControl (.refuse Reason.noUnit 0)
    | some u =>
      if (s.unit u).state = .draining then
        let s := (s.setUnit u { s.unit u with state := .opened }).unitPass none u
        s.answerControl (.ok (place 0 3 (s.holders u).length) 0)
      else s.answerControl (.refuse Reason.unitState u.val)) s

/-- DRAIN_COMPLETION of unit u: a DRAINING unit without a holder becomes OFFLINE and enters the drained set (R162). -/
def execDrainCompletion (u : UnitId) (s : State) : Result := asEvent (fun s => s.completeDrain u) s

/-- READ_COMPLETIONS of the half that starts at unit `base` (0 or 32): the drained units of that half, the detached set
and the other-half mark are answered, and the entries returned are removed (R165). -/
def State.readHalf (s : State) (base : Nat) : State :=
  let inHalf (u : UnitId) : Bool := decide (base ≤ u.val ∧ u.val < base + 32)
  let units := allUnits.filter fun u => s.drained.get u
  let drainedWord := (units.filter inHalf).foldl (fun w u => w ||| place (u.val - base) 1 1) (0 : Word)
  let detachedWord := (allAgents.filter fun a => s.detached.get a).foldl (fun w a => w ||| place a.val 1 1) (0 : Word)
  let other := units.any fun u => !inHalf u
  ({ s with
      drained := Vector.ofFn fun u => s.drained.get u && !inHalf u
      detached := Vector.replicate 16 false } : State).answerControl
    (.ok drainedWord (detachedWord ||| place 31 1 (flagNo other)))

/-- READ_COMPLETIONS (R165). -/
def execReadCompletions (aid : AgentId) (s : State) : Result :=
  atControlStation 0x32 aid (fun s =>
    match flagOf (bitField s.control.arg0 0 8) with
    | none => s.answerControl (.refuse Reason.badArgument 0)
    | some half => s.readHalf (if half then 32 else 0)) s

/-- SET_CONTROL_ATTENTION (R166); CATN_N follows through `State.catn`. -/
def execSetControlAttention (aid : AgentId) (s : State) : Result :=
  atControlStation 0x33 aid (fun s =>
    match flagOf (bitField s.control.arg0 0 2) with
    | none => s.answerControl (.refuse Reason.badArgument 0)
    | some on =>
      ({ s with controlAttention := on } : State).answerControl
        (.ok (place 0 1 (flagNo on) ||| place 8 7 s.drainedCount ||| place 16 5 s.detachedCount) 0)) s

/-- FREEZE (R167): the answer gives the flag as it was. -/
def execFreeze (aid : AgentId) (s : State) : Result :=
  atControlStation 0x30 aid (fun s =>
    ({ s with frozen := true } : State).answerControl (.ok (place 0 1 (flagNo s.frozen)) 0)) s

/-- RESET_LIVE's effects on the state, before its answer (R19, R21, R42, R120, R133, R152, R168). -/
def State.cleared (s : State) : State :=
  { s with
    units := s.units.map fun x =>
      { x with
        state := if x.state = .draining then .offline else x.state
        queue := [], mark := none, bottom := Config.defaultBottom }
    pools := s.pools.map fun x => { x with queue := [], bottom := Config.defaultBottom }
    slots := s.slots.map fun x => { x with record := none }
    agents := s.agents.map fun a =>
      { a with state := if a.state = .detaching then .detached else a.state, held := false }
    notices := s.notices.map fun q => { q with entries := [] }
    stations := Vector.ofFn fun a => if s.busy a then (s.station a).answered (.ok 0 0) else s.station a
    timer := { s.timer with inFlight := s.timer.inFlight.map fun x => { x with stale := true } }
    drained := Vector.ofFn fun u => s.drained.get u || (s.unit u).state == .draining
    detached := Vector.ofFn fun a => s.detached.get a || s.busy a }

/-- RESET_LIVE (R168): the answer counts the units that were DRAINING and the agents that were DETACHING. -/
def execResetLive (aid : AgentId) (s : State) : Result :=
  atControlStation 0x31 aid (fun s =>
    s.cleared.answerControl
      (.ok (place 0 7 (allUnits.countP fun u => (s.unit u).state == .draining) |||
        place 16 5 (allAgents.countP s.busy)) 0)) s

end Sys2Proof.Machine
end

