-- ==== Sys2Proof/Machine/Time.lean ====
section
/-! DEFINITION. Lease time (spec/06): SET_TICK, CLK_RISING_EDGE, TICK, TICK_ARRIVAL and the three expiries. -/

namespace Sys2Proof.Machine

/-- SET_TICK (R110): source and divider are written together, the divider count is set to 0 and the TKIN reference to
none; ticks in flight stay in flight. -/
def execSetTick (aid : AgentId) (s : State) : Result :=
  atControlStation 0x26 aid (fun s =>
    if s.frozen then s.answerControl (.refuse Reason.frozen 0)
    else match tickSetupOf s.control with
      | none => s.answerControl (.refuse Reason.badArgument 0)
      | some (source, divider) =>
        (s.setTimer { s.timer with source := source, divider := divider, count := 0, reference := none }).answerControl
          (.ok (place 0 2 source.no) (place 0 32 divider))) s

/-- The arrivals of a tick taken now: one for every record with a present countdown, in ascending slot number (R111). -/
def State.reached (s : State) : List Arrival :=
  (allSlots.filter fun i => (s.record i).any fun r => r.standing.countdown.isSome).map fun i => ⟨i, false⟩

/-- A tick is taken: it is handed to every record with a present countdown (R107, R111). -/
def State.takeTick (s : State) : State :=
  s.setTimer { s.timer with inFlight := s.timer.inFlight ++ s.reached }

/-- A rising edge of CLK with TKIN at the level given (R107 to R109). -/
def State.clockEdge (s : State) (tkin : Bool) : State :=
  let t := s.timer
  match t.source with
  | .off => s
  | .internal =>
    if t.divider ≤ t.count + 1 then (s.setTimer { t with count := 0 }).takeTick
    else s.setTimer { t with count := t.count + 1 }
  | .pin =>
    let sampled := s.setTimer { t with reference := some tkin }
    if tkin = true ∧ t.reference = some false then sampled.takeTick else sampled

/-- A rising edge of CLK, with TKIN high under PIN, would take a tick now (R108, R109). -/
def State.tickDue (s : State) : Bool :=
  match s.timer.source with
  | .off => false
  | .internal => decide (s.timer.divider ≤ s.timer.count + 1)
  | .pin => decide (s.timer.reference = some false)

/-- CLK_RISING_EDGE with TKIN at the level given (R108, R109). -/
def execClkRisingEdge (tkin : Bool) (s : State) : Result := asEvent (fun s => s.clockEdge tkin) s

/-- TICK: the edge at which the timer takes a tick from its source; where the source gives none, none is taken (R107). -/
def execTick (s : State) : Result := asEvent (fun s => if s.tickDue then s.clockEdge true else s) s

/-- The oldest arrival in flight for slot i, if any. -/
def State.nextArrival (s : State) (i : SlotId) : Option Arrival := s.timer.inFlight.find? fun a => a.slot == i

/-- The list without its first arrival for slot i. -/
def dropArrival (i : SlotId) : List Arrival → List Arrival
  | [] => []
  | a :: rest => if a.slot = i then rest else a :: dropArrival i rest

/-- The arrival for slot i has been made. -/
def State.arrived (s : State) (i : SlotId) : State :=
  s.setTimer { s.timer with inFlight := dropArrival i s.timer.inFlight }

/-- The same standing with its present countdown lowered to c. -/
def Standing.lowered (x : Standing) (c : Nat) : Standing :=
  match x with
  | .waiting t d _ => .waiting t d (some c)
  | .held u d _ => .held u d (some c)
  | .recalled u d _ => .recalled u d c
  | .spent k cause => .spent k cause

/-- The cause with which a record is spent when its countdown reaches 0 (Table 6-4). -/
def Standing.expiry : Standing → Option SpentCause
  | .held .. => some .expired
  | .waiting .. => some .timedOut
  | .recalled .. => some .revoked
  | .spent .. => none

/-- The countdown of the record in slot i falls by 1; at 0 the record expires in the same event (R111, R113 to R115). -/
def State.lowerCountdown (s : State) (i : SlotId) : State :=
  match s.record i with
  | none => s
  | some r =>
    match r.standing.countdown, r.standing.expiry with
    | some c, some cause =>
      if c ≤ 1 then s.spend i cause else s.writeRecord i (some { r with standing := r.standing.lowered (c - 1) })
    | _, _ => s

/-- The oldest tick in flight for slot i reaches it: a stale arrival does nothing (R111). -/
def State.arrive (s : State) (i : SlotId) : State :=
  match s.nextArrival i with
  | none => s
  | some a => if a.stale then s.arrived i else (s.arrived i).lowerCountdown i

/-- TICK_ARRIVAL at slot i (R111); where no tick is in flight for the slot there is no such event. -/
def execTickArrival (i : SlotId) (s : State) : Result := asEvent (fun s => s.arrive i) s

/-- The next arrival at slot i takes the countdown of a record to 0 with the given expiry. -/
def State.expiryDue (s : State) (i : SlotId) (cause : SpentCause) : Bool :=
  (s.nextArrival i).any (fun a => !a.stale) &&
    (s.record i).any fun r => r.standing.expiry == some cause && r.standing.countdown.any fun c => decide (c ≤ 1)

/-- LEASE_EXPIRY in slot i: the arrival that takes a HELD record's countdown to 0 (R113). -/
def execLeaseExpiry (i : SlotId) (s : State) : Result :=
  asEvent (fun s => if s.expiryDue i .expired then s.arrive i else s) s

/-- WAIT_TIMEOUT in slot i: the arrival that takes a WAITING record's countdown to 0 (R114). -/
def execWaitTimeout (i : SlotId) (s : State) : Result :=
  asEvent (fun s => if s.expiryDue i .timedOut then s.arrive i else s) s

/-- GRACE_EXPIRY in slot i: the arrival that takes a RECALLED record's countdown to 0 (R115). -/
def execGraceExpiry (i : SlotId) (s : State) : Result :=
  asEvent (fun s => if s.expiryDue i .revoked then s.arrive i else s) s

end Sys2Proof.Machine
end

