-- ==== Sys2Proof/Machine/Units.lean ====
section
/-! DEFINITION. The control commands on unit and pool records: CONFIGURE_UNIT, CONFIGURE_POOL, OPEN_UNIT (spec/01) and
SET_BOTTOM (rule R82 of spec/04). -/

namespace Sys2Proof.Machine

/-- The new pool field of unit u would take the last member out of pool p, whose wait queue is not empty: the pool that
makes the change IN_USE (R11). -/
def State.poolEmptied (s : State) (u : UnitId) (config : UnitConfig) : Option PoolId :=
  match (s.unit u).config.pool with
  | none => none
  | some p =>
    if config.pool ≠ some p ∧ s.members p = [u] ∧ (s.pool p).queue ≠ [] then some p else none

/-- CONFIGURE_UNIT, checks in the order of R11; what is taken changes the six fields and nothing else (R12). -/
def execConfigureUnit (aid : AgentId) (s : State) : Result :=
  atControlStation 0x21 aid (fun s =>
    if s.frozen then s.answerControl (.refuse Reason.frozen 0)
    else match unitOf (bitField s.control.arg0 0 8) with
      | none => s.answerControl (.refuse Reason.noUnit 0)
      | some u =>
        match unitConfigOf s.control with
        | none => s.answerControl (.refuse Reason.badArgument u.val)
        | some config =>
          if (s.unit u).state ≠ .offline then s.answerControl (.refuse Reason.unitState u.val)
          else match s.poolEmptied u config with
            | some p => s.answerControl (.refuse Reason.inUse p.val)
            | none => (s.setUnit u { s.unit u with config := config }).answerControl (.ok 0 0)) s

/-- CONFIGURE_POOL (R16). -/
def execConfigurePool (aid : AgentId) (s : State) : Result :=
  atControlStation 0x22 aid (fun s =>
    if s.frozen then s.answerControl (.refuse Reason.frozen 0)
    else match poolOf (bitField s.control.arg0 0 8) with
      | none => s.answerControl (.refuse Reason.noPool 0)
      | some p =>
        match poolOrderOf s.control with
        | none => s.answerControl (.refuse Reason.badArgument p.val)
        | some (order, rotate) =>
          if (s.pool p).queue ≠ [] then s.answerControl (.refuse Reason.inUse p.val)
          else (s.setPool p { s.pool p with order := order, rotate := rotate }).answerControl (.ok 0 0)) s

/-- OPEN_UNIT (R13). -/
def execOpenUnit (aid : AgentId) (s : State) : Result :=
  atControlStation 0x27 aid (fun s =>
    match unitOf (bitField s.control.arg0 0 8) with
    | none => s.answerControl (.refuse Reason.noUnit 0)
    | some u =>
      if (s.unit u).state ≠ .offline then s.answerControl (.refuse Reason.unitState u.val)
      else ((s.setUnit u { s.unit u with state := .opened }).unitPass none u).answerControl (.ok 0 0)) s

/-- The bottom agent of a unit or pool is written (R82). -/
def State.writeBottom (s : State) (t : Target) (a : AgentId) : State :=
  match t with
  | .unit u => s.setUnit u { s.unit u with bottom := a }
  | .pool p => s.setPool p { s.pool p with bottom := a }

/-- SET_BOTTOM on a target that exists (R82). -/
def State.setBottomOf (s : State) (t : Target) : State :=
  match agentOf (bitField s.control.arg2 0 8) with
  | none => s.answerControl (.refuse Reason.badArgument t.number)
  | some a => ((s.writeBottom t a).passOn none t).answerControl (.ok 0 0)

/-- SET_BOTTOM (R82): target kind 0 is a unit, 1 a pool. -/
def execSetBottom (aid : AgentId) (s : State) : Result :=
  atControlStation 0x2F aid (fun s =>
    let number := bitField s.control.arg1 0 8
    match flagOf (bitField s.control.arg0 0 2) with
    | none => s.answerControl (.refuse Reason.badArgument 0)
    | some false =>
      match unitOf number with
      | none => s.answerControl (.refuse Reason.noUnit 0)
      | some u => s.setBottomOf (.unit u)
    | some true =>
      match poolOf number with
      | none => s.answerControl (.refuse Reason.noPool 0)
      | some p => s.setBottomOf (.pool p)) s

end Sys2Proof.Machine
end

