-- ==== Sys2Proof/WellFormed.lean ====
section
/-! DEFINITION. Which terms of Instr are the access that their row names. The rows of Table 10-2 and the events have
no operand outside its range by their types; the four rows about other bus accesses name an offset or a code. -/

namespace Sys2Proof

/-- The word offset of CMD in a window (Table 10-1: 00Ch and 04Ch). -/
def Window.cmdOffset : Window → WordOffset
  | .agent => 3
  | .control => 19

/-- The word is one of the four that a station takes writes in: ARG0, ARG1, ARG2, CMD of the agent station. -/
def isStationInput (offset : WordOffset) : Bool := decide (offset.val ≤ 3)

/-- The offset lies in the control window, 040h to 05Bh (R171). -/
def inControlWindow (offset : WordOffset) : Bool := decide (16 ≤ offset.val ∧ offset.val ≤ 22)

/-- An UNDEFINED_COMMAND's code names no command of its station (R172); an ARGUMENT_WRITE is not a write of CMD (R170);
a BUSY_STATION_WRITE is a write of an argument word or of CMD of an agent station (R146); a
CONTROL_WINDOW_REFUSED is an access in the control window (R171). -/
def Instr.wellFormed : Instr → Bool
  | .undefinedCommand aid window data => (commandOf window aid (data.toNat % 256)).isNone
  | .argumentWrite _ offset _ => decide (offset ≠ Window.agent.cmdOffset ∧ offset ≠ Window.control.cmdOffset)
  | .busyStationWrite _ offset _ => isStationInput offset
  | .controlWindowRefused _ offset _ => inControlWindow offset
  | .attach _ | .detach _ | .acquire _ | .acquireAny _ | .release _ | .renew _ | .upgrade _ | .downgrade _
  | .cancel _ | .queryLease _ | .queryUnit _ | .probe _ | .nextNotice _ | .setAttention _
  | .configureUnit _ | .configurePool _ | .setBand _ | .setClearance _ | .setQuota _ | .setTick _ | .openUnit _
  | .drainUnit _ | .restoreUnit _ | .recallLease _ | .recallUnit _ | .holdAgent _ | .resumeAgent _ | .detachAgent _
  | .setBottom _ | .freeze _ | .resetLive _ | .readCompletions _ | .setControlAttention _ | .inspectRecord _
  | .listHolder _ | .hardwareReset | .powerOn _ | .tick | .tickArrival _ | .leaseExpiry _ | .waitTimeout _
  | .graceExpiry _ | .withdrawalStep _ | .holdingStep _ | .walkEnd _ | .drainCompletion _ | .clkRisingEdge _
  | .hardwareResetRelease => true

end Sys2Proof
end

