-- ==== Sys2Proof/Machine/Port.lean ====
section
/-! DEFINITION. The bus port (spec/10): what a read returns, what a write does at every offset, and the four rows of the
table that are other accesses than a command: UNDEFINED_COMMAND, ARGUMENT_WRITE, BUSY_STATION_WRITE and
CONTROL_WINDOW_REFUSED. -/

namespace Sys2Proof.Machine

/-- The word at a station's word offset 0 to 6 (Table 10-1). -/
def Station.word (st : Station) : Nat → Word
  | 0 => st.arg0
  | 1 => st.arg1
  | 2 => st.arg2
  | 3 => st.cmd
  | 4 => st.resp0
  | 5 => st.resp1
  | 6 => st.stat
  | _ => 0

/-- What agent aid reads at its own station: while BUSY, STAT reads BUSY and the response words 0 (R146, R173). -/
def State.readStation (s : State) (aid : AgentId) (k : Nat) : Word :=
  if s.busy aid = true ∧ (k = 4 ∨ k = 5) then 0
  else if s.busy aid = true ∧ k = 6 then busyWord
  else (s.station aid).word k

/-- The access is discarded and drives ERR_N: the control window, by another agent than the supervisor (R171); while
RST_N is asserted the port answers nothing and ERR_N is not asserted (R170). -/
def State.isRefused (s : State) (aid : AgentId) (offset : WordOffset) : Bool :=
  !s.inReset && inControlWindow offset && aid != s.supervisor

/-- The word that a read by agent aid at a word offset returns (R170, R171, Table 10-1). -/
def State.readWord (s : State) (aid : AgentId) (offset : WordOffset) : Word :=
  if s.inReset then 0
  else if offset.val < 7 then s.readStation aid offset.val
  else if inControlWindow offset then (if aid = s.supervisor then s.control.word (offset.val - 16) else 0)
  else if offset.val = 31 then Config.partId
  else 0

/-- A read changes nothing: the part drives the word on D, and ERR_N if the access is discarded (R171, R172). -/
def portRead (aid : AgentId) (offset : WordOffset) (s : State) : Result :=
  .next (s.setPort { err := s.isRefused aid offset, data := some (s.readWord aid offset) })

/-- An argument word of a station takes the data; the words at offsets 4 to 6 ignore writes (Table 10-1). -/
def Station.stored (st : Station) (k : Nat) (data : Word) : Station :=
  match k with
  | 0 => { st with arg0 := data }
  | 1 => { st with arg1 := data }
  | 2 => { st with arg2 := data }
  | _ => st

/-- A write to another word than CMD (R170, R171, R173). -/
def storeWord (aid : AgentId) (offset : WordOffset) (data : Word) (s : State) : Result :=
  let s := s.quiet
  if s.inReset then .next s
  else if offset.val < 7 then
    if s.busy aid then .next s else .next (s.setStation aid ((s.station aid).stored offset.val data))
  else if inControlWindow offset then
    if aid = s.supervisor then .next (s.setControl (s.control.stored (offset.val - 16) data)) else .next s.refuseAccess
  else .next s

/-- A write of CMD at agent aid's own station with the code given (R172, Table 10-2). -/
def takeAgentCode (aid : AgentId) (code : Nat) (s : State) : Result :=
  match code with
  | 0x01 => execAttach aid s
  | 0x02 => execDetach aid s
  | 0x03 => execAcquire aid s
  | 0x04 => execAcquireAny aid s
  | 0x05 => execRelease aid s
  | 0x06 => execRenew aid s
  | 0x07 => execUpgrade aid s
  | 0x08 => execDowngrade aid s
  | 0x09 => execCancel aid s
  | 0x0A => execQueryLease aid s
  | 0x0B => execQueryUnit aid s
  | 0x0C => execProbe aid s
  | 0x0D => execNextNotice aid s
  | 0x0E => execSetAttention aid s
  | n => atAgentStation (BitVec.ofNat 32 n) aid (fun s => s.answer aid (.refuse Reason.badCommand 0)) s

/-- A write of CMD in the control window by agent aid with the code given (R154, R172, Table 10-2). -/
def takeControlCode (aid : AgentId) (code : Nat) (s : State) : Result :=
  match code with
  | 0x21 => execConfigureUnit aid s
  | 0x22 => execConfigurePool aid s
  | 0x23 => execSetBand aid s
  | 0x24 => execSetClearance aid s
  | 0x25 => execSetQuota aid s
  | 0x26 => execSetTick aid s
  | 0x27 => execOpenUnit aid s
  | 0x28 => execDrainUnit aid s
  | 0x29 => execRestoreUnit aid s
  | 0x2A => execRecallLease aid s
  | 0x2B => execRecallUnit aid s
  | 0x2C => execHoldAgent aid s
  | 0x2D => execResumeAgent aid s
  | 0x2E => execDetachAgent aid s
  | 0x2F => execSetBottom aid s
  | 0x30 => execFreeze aid s
  | 0x31 => execResetLive aid s
  | 0x32 => execReadCompletions aid s
  | 0x33 => execSetControlAttention aid s
  | 0x34 => execInspectRecord aid s
  | 0x35 => execListHolder aid s
  | n => atControlStation (BitVec.ofNat 32 n) aid (fun s => s.answerControl (.refuse Reason.badCommand 0)) s

/-- A write of CMD in a window: the code is bits 7:0 of the data, and bits 31:8 are ignored (R172). -/
def takeCode (window : Window) (aid : AgentId) (data : Word) (s : State) : Result :=
  match window with
  | .agent => takeAgentCode aid (data.toNat % 256) s
  | .control => takeControlCode aid (data.toNat % 256) s

/-- A write by agent aid at any word offset (R170 to R173). -/
def portWrite (aid : AgentId) (offset : WordOffset) (data : Word) (s : State) : Result :=
  if offset = Window.agent.cmdOffset then takeCode .agent aid data s
  else if offset = Window.control.cmdOffset then takeCode .control aid data s
  else storeWord aid offset data s

/-- UNDEFINED_COMMAND: a write of CMD whose code names no command of that station is refused BAD_COMMAND (R172). -/
def execUndefinedCommand (aid : AgentId) (window : Window) (data : Word) (s : State) : Result :=
  takeCode window aid data s

/-- ARGUMENT_WRITE: a write to an argument word is stored; to an unmapped or read-only word it is ignored (R170). -/
def execArgumentWrite (aid : AgentId) (offset : WordOffset) (data : Word) (s : State) : Result :=
  portWrite aid offset data s

/-- BUSY_STATION_WRITE: a write to the argument words or CMD of a BUSY station is discarded (R146, R173). The same write
at a station that is READY has the effect it has there (notes/assumptions/6.md). -/
def execBusyStationWrite (aid : AgentId) (offset : WordOffset) (data : Word) (s : State) : Result :=
  portWrite aid offset data s

/-- CONTROL_WINDOW_REFUSED: an access to the control window by another agent than the supervisor is discarded, and ERR_N
is asserted for its length (R171); a read returns 0. -/
def execControlWindowRefused (aid : AgentId) (offset : WordOffset) (access : Access) (s : State) : Result :=
  match access with
  | .read => portRead aid offset s
  | .write data => portWrite aid offset data s

end Sys2Proof.Machine
end

