-- ==== Sys2Proof/Machine/Resets.lean ====
section
/-! DEFINITION. HARDWARE_RESET, HARDWARE_RESET_RELEASE and POWER_ON (R20, R21, R43, R121, R134, R153, R169, R177). -/

namespace Sys2Proof.Machine

/-- A configuration item after hardware reset: kept if the part is frozen, else its default (R167). -/
def State.keepIfFrozen {α : Type} (s : State) (kept fallback : α) : α := if s.frozen then kept else fallback

/-- The part in hardware reset: live state, stations and completion sets cleared; serials, the frozen flag and the
supervisor number kept; configuration kept if frozen and defaulted otherwise. -/
def State.hardwareReset (s : State) : State :=
  let zero := State.afterPowerOn s.supervisor
  { zero with
    units := s.units.map fun x =>
      { config := s.keepIfFrozen x.config UnitConfig.default, state := .offline, queue := [], mark := none,
        bottom := Config.defaultBottom }
    pools := s.pools.map fun x =>
      { order := s.keepIfFrozen x.order .arrival, rotate := s.keepIfFrozen x.rotate false,
        bottom := Config.defaultBottom, queue := [] }
    slots := s.slots.map fun x => { x with record := none }
    agents := Vector.ofFn fun a =>
      { state := .detached
        quota := s.keepIfFrozen (s.agent a).quota Config.defaultQuota
        clearance := s.keepIfFrozen (s.agent a).clearance (decide (a = s.supervisor))
        held := false }
    timer :=
      { source := s.keepIfFrozen s.timer.source .off
        divider := s.keepIfFrozen s.timer.divider Config.defaultDivider
        count := 0, reference := none, inFlight := [] }
    ceiling := s.keepIfFrozen s.ceiling Config.defaultCeiling
    frozen := s.frozen
    inReset := true
    pending := s.pending }

/-- HARDWARE_RESET: RST_N is asserted, and holds the part in hardware reset until its release (R178). -/
def execHardwareReset (s : State) : Result := .next s.hardwareReset

/-- HARDWARE_RESET_RELEASE: the port answers stations again (R121, R170, R178). -/
def execHardwareResetRelease (s : State) : Result := .next { s.quiet with inReset := false }

/-- POWER_ON with the straps on SUPV[3:0] (R153, R177): RST_N is an input, so its level stays as it is
(notes/assumptions/2.md). -/
def execPowerOn (straps : AgentId) (s : State) : Result :=
  .next { State.afterPowerOn straps with inReset := s.inReset, pending := s.pending }

end Sys2Proof.Machine
end

