-- ==== Sys2Proof/Machine/Dispatch.lean ====
section
/-! DEFINITION. One arm for each command and event of spec/opcode_table.json: a direct call of its meaning. -/

namespace Sys2Proof.Machine

def exec (i : Instr) (s : State) : Host.Outcome State Fault Refusal :=
  match i with
  | .attach aid => Sys2Proof.Machine.execAttach aid s
  | .detach aid => Sys2Proof.Machine.execDetach aid s
  | .acquire aid => Sys2Proof.Machine.execAcquire aid s
  | .acquireAny aid => Sys2Proof.Machine.execAcquireAny aid s
  | .release aid => Sys2Proof.Machine.execRelease aid s
  | .renew aid => Sys2Proof.Machine.execRenew aid s
  | .upgrade aid => Sys2Proof.Machine.execUpgrade aid s
  | .downgrade aid => Sys2Proof.Machine.execDowngrade aid s
  | .cancel aid => Sys2Proof.Machine.execCancel aid s
  | .queryLease aid => Sys2Proof.Machine.execQueryLease aid s
  | .queryUnit aid => Sys2Proof.Machine.execQueryUnit aid s
  | .probe aid => Sys2Proof.Machine.execProbe aid s
  | .nextNotice aid => Sys2Proof.Machine.execNextNotice aid s
  | .setAttention aid => Sys2Proof.Machine.execSetAttention aid s
  | .configureUnit aid => Sys2Proof.Machine.execConfigureUnit aid s
  | .configurePool aid => Sys2Proof.Machine.execConfigurePool aid s
  | .setBand aid => Sys2Proof.Machine.execSetBand aid s
  | .setClearance aid => Sys2Proof.Machine.execSetClearance aid s
  | .setQuota aid => Sys2Proof.Machine.execSetQuota aid s
  | .setTick aid => Sys2Proof.Machine.execSetTick aid s
  | .openUnit aid => Sys2Proof.Machine.execOpenUnit aid s
  | .drainUnit aid => Sys2Proof.Machine.execDrainUnit aid s
  | .restoreUnit aid => Sys2Proof.Machine.execRestoreUnit aid s
  | .recallLease aid => Sys2Proof.Machine.execRecallLease aid s
  | .recallUnit aid => Sys2Proof.Machine.execRecallUnit aid s
  | .holdAgent aid => Sys2Proof.Machine.execHoldAgent aid s
  | .resumeAgent aid => Sys2Proof.Machine.execResumeAgent aid s
  | .detachAgent aid => Sys2Proof.Machine.execDetachAgent aid s
  | .setBottom aid => Sys2Proof.Machine.execSetBottom aid s
  | .freeze aid => Sys2Proof.Machine.execFreeze aid s
  | .resetLive aid => Sys2Proof.Machine.execResetLive aid s
  | .readCompletions aid => Sys2Proof.Machine.execReadCompletions aid s
  | .setControlAttention aid => Sys2Proof.Machine.execSetControlAttention aid s
  | .inspectRecord aid => Sys2Proof.Machine.execInspectRecord aid s
  | .listHolder aid => Sys2Proof.Machine.execListHolder aid s
  | .undefinedCommand aid window data => Sys2Proof.Machine.execUndefinedCommand aid window data s
  | .argumentWrite aid offset data => Sys2Proof.Machine.execArgumentWrite aid offset data s
  | .busyStationWrite aid offset data => Sys2Proof.Machine.execBusyStationWrite aid offset data s
  | .controlWindowRefused aid offset access => Sys2Proof.Machine.execControlWindowRefused aid offset access s
  | .hardwareReset => Sys2Proof.Machine.execHardwareReset s
  | .powerOn straps => Sys2Proof.Machine.execPowerOn straps s
  | .tick => Sys2Proof.Machine.execTick s
  | .tickArrival slot => Sys2Proof.Machine.execTickArrival slot s
  | .leaseExpiry slot => Sys2Proof.Machine.execLeaseExpiry slot s
  | .waitTimeout slot => Sys2Proof.Machine.execWaitTimeout slot s
  | .graceExpiry slot => Sys2Proof.Machine.execGraceExpiry slot s
  | .withdrawalStep agent => Sys2Proof.Machine.execWithdrawalStep agent s
  | .holdingStep agent => Sys2Proof.Machine.execHoldingStep agent s
  | .walkEnd agent => Sys2Proof.Machine.execWalkEnd agent s
  | .drainCompletion unit => Sys2Proof.Machine.execDrainCompletion unit s
  | .clkRisingEdge tkin => Sys2Proof.Machine.execClkRisingEdge tkin s
  | .hardwareResetRelease => Sys2Proof.Machine.execHardwareResetRelease s

end Sys2Proof.Machine
end

