-- ==== Sys2Proof/Safety.lean ====
section
/-! DEFINITION. What the spec's laws say of a state, as predicates, and the conditions under which a station takes a
command. Nothing here changes what a command does. -/

namespace Sys2Proof.Machine

/-! ### When a station takes a command -/

/-- The port answers, and agent aid's station is READY: a write of its CMD takes a command (R170, R172). -/
abbrev Ready (aid : AgentId) (s : State) : Prop := s.inReset = false ∧ s.busy aid = false

/-- The port answers, and agent aid is the supervisor agent: the control station takes its commands (R154, R171). -/
abbrev Supervises (aid : AgentId) (s : State) : Prop := s.inReset = false ∧ aid = s.supervisor

/-- The station with a command's answer: CMD reads the code, the argument words are kept (R172). -/
def Station.holding (st : Station) (code : Word) (ans : Answer) : Station :=
  { st with cmd := code, stat := ans.status.word, resp0 := ans.resp0, resp1 := ans.resp1 }

/-- The state in which a command at agent aid's station runs: the port is quiet and CMD holds the code. -/
def State.taken (s : State) (aid : AgentId) (code : Word) : State :=
  s.quiet.setStation aid { s.station aid with cmd := code }

/-- The state in which a command at the control station runs. -/
def State.takenControl (s : State) (code : Word) : State := s.quiet.setControl { s.control with cmd := code }

/-- The state after a command at agent aid's station that changes nothing but its station. -/
def State.replied (s : State) (aid : AgentId) (code : Word) (ans : Answer) : State :=
  s.quiet.setStation aid ((s.station aid).holding code ans)

/-- The state after a command at the control station that changes nothing but that station. -/
def State.repliedControl (s : State) (code : Word) (ans : Answer) : State :=
  s.quiet.setControl (s.control.holding code ans)

/-- The command at agent aid's station is refused with a reason and a location, and changes nothing else (R175, R176). -/
def Refuses (c : Instr) (s : State) (aid : AgentId) (code : Word) (reason location : Nat) : Prop :=
  exec c s = .next (s.replied aid code (.refuse reason location))

/-- The command at the control station is refused with a reason and a location, and changes nothing else. -/
def RefusesControl (c : Instr) (s : State) (code : Word) (reason location : Nat) : Prop :=
  exec c s = .next (s.repliedControl code (.refuse reason location))

/-- The record r in slot i is what agent aid's ARG0 names: the handle check passes (R33). -/
abbrev Names (s : State) (aid : AgentId) (i : SlotId) (r : Record) : Prop :=
  s.record i = some r ∧ r.agent = aid ∧ bitField (s.station aid).arg0 0 8 = i.val ∧
    bitField (s.station aid).arg0 8 8 = (s.slot i).serial.toNat

/-- Agent aid is ATTACHED, and its argument words ask for unit u with an argument of ACQUIRE in range each (R45). -/
abbrev Requests (s : State) (aid : AgentId) (u : UnitId) (mode : Mode) (duration waitLimit : Nat) : Prop :=
  s.isAttached aid = true ∧ bitField (s.station aid).arg0 0 8 = u.val ∧ bitField (s.station aid).arg0 8 2 = mode.no ∧
    bitField (s.station aid).arg1 0 16 = duration ∧ duration ≤ 4095 ∧
    bitField (s.station aid).arg2 0 16 = waitLimit ∧ waitLimit ≤ 4095

/-- Agent aid is ATTACHED, and its argument words ask for a unit of pool p, with duration and wait limit in range
(R53). -/
abbrev RequestsAny (s : State) (aid : AgentId) (p : PoolId) (duration waitLimit : Nat) : Prop :=
  s.isAttached aid = true ∧ bitField (s.station aid).arg0 0 8 = p.val ∧
    bitField (s.station aid).arg1 0 16 = duration ∧ duration ≤ 4095 ∧
    bitField (s.station aid).arg2 0 16 = waitLimit ∧ waitLimit ≤ 4095

/-- The record r in slot i is the one holder record of agent a on unit u (R48). -/
abbrev SoleHold (s : State) (a : AgentId) (u : UnitId) (i : SlotId) (r : Record) : Prop :=
  s.record i = some r ∧ r.agent = a ∧ r.holding = some u ∧
    ∀ j, s.owner j = some a → s.holding j = some u → j = i

/-- Agent a has a HELD or RECALLED record on unit u, or a WAITING record for it (R155). -/
abbrev Occupies (s : State) (a : AgentId) (u : UnitId) : Prop :=
  ∃ i, ∃ r ∈ s.record i, r.agent = a ∧ (r.holding = some u ∨ r.isWaiting = true ∧ r.target = .unit u)

/-- Slot i is the lowest-numbered FREE slot (R31). -/
abbrev LowestFree (s : State) (i : SlotId) : Prop := s.record i = none ∧ ∀ j, j < i → s.record j ≠ none

/-- ARG1 and ARG2 spell the six configuration fields c, each in its range (R174, Table 10-2). -/
abbrev UnitConfig.SpelledIn (c : UnitConfig) (st : Station) : Prop :=
  bitField st.arg1 0 4 = (c.pool.map Fin.val).getD 15 ∧
    bitField st.arg1 4 3 = c.capacity ∧ 1 ≤ c.capacity ∧ c.capacity ≤ 4 ∧
    bitField st.arg1 8 2 = (if c.order = OrderMode.ring then 1 else 0) ∧
    bitField st.arg1 10 2 = flagNo c.rotate ∧
    bitField st.arg1 16 16 = c.grace ∧ c.grace ≤ 255 ∧
    bitField st.arg2 0 16 = c.limit.getD 0 ∧ ∀ l ∈ c.limit, 1 ≤ l ∧ l ≤ 4095

/-- A field of ARG1 or ARG2 of CONFIGURE_UNIT is out of range (R11, R174). -/
abbrev Station.unitConfigOutOfRange (st : Station) : Prop :=
  (7 < bitField st.arg1 0 4 ∧ bitField st.arg1 0 4 ≠ 15) ∨ bitField st.arg1 4 3 = 0 ∨ 4 < bitField st.arg1 4 3 ∨
    1 < bitField st.arg1 8 2 ∨ 1 < bitField st.arg1 10 2 ∨ 255 < bitField st.arg1 16 16 ∨ 4095 < bitField st.arg2 0 16

/-! ### The end of a record's place (R6, R7, R14, R35) -/

/-- p is s with the record r of slot i out of the queue it waits in, or without its unit's pending-upgrade mark, and with
`left` in the slot under the same serial; a tick in flight for the slot does nothing more (R6, R7, R14, R111). It says
nothing of notices, agents, agent stations and the detached set. -/
def LeavesPlace (s p : State) (i : SlotId) (r : Record) (left : Option Record) : Prop :=
  (∀ j, p.slot j = if j = i then { serial := (s.slot i).serial, record := left } else s.slot j) ∧
    (∀ v, p.unit v =
      { s.unit v with
        queue := if r.isWaiting = true ∧ r.target = .unit v then (s.unit v).queue.filter (· ≠ i) else (s.unit v).queue
        mark := if r.holding = some v ∧ (s.unit v).mark = some i then none else (s.unit v).mark }) ∧
    (∀ q, p.pool q =
      { s.pool q with
        queue := if r.isWaiting = true ∧ r.target = .pool q then (s.pool q).queue.filter (· ≠ i)
          else (s.pool q).queue }) ∧
    p.timer =
      { s.timer with inFlight := s.timer.inFlight.map fun a => if a.slot = i then { a with stale := true } else a } ∧
    p.control = s.control ∧ p.ceiling = s.ceiling ∧ p.frozen = s.frozen ∧ p.drained = s.drained ∧
    p.controlAttention = s.controlAttention ∧ p.supervisor = s.supervisor ∧ p.inReset = s.inReset ∧ p.port = s.port ∧
    p.pending = s.pending

/-- t is p after what the departure of the record r calls: the pass on the target of a wait; on the unit of a holder,
whose drain then completes if the unit is DRAINING and no holder is left; nothing for a SPENT record (R6, R7, R14, R35,
R162). -/
def Departs (r : Record) (p t : State) : Prop :=
  (∀ target d c, r.standing = .waiting target d c → t = p.passOn none target) ∧
    (∀ u q, r.holding = some u → q = p.unitPass none u →
      ((q.unit u).state = .draining → q.holders u = [] →
        t = (q.setUnit u { q.unit u with state := .offline }).addDrained u) ∧
      ((q.unit u).state ≠ .draining ∨ q.holders u ≠ [] → t = q)) ∧
    (r.isSpent = true → t = p)

/-- What the departure of the record r of slot i makes of units: a mark that names it is cleared, and a DRAINING unit that
it leaves without a holder becomes OFFLINE and enters the drained set; no other unit's state changes, and nothing else
enters or leaves the drained set (R6, R8, R162). -/
def FreesUnits (s t : State) (i : SlotId) (r : Record) : Prop :=
  (∀ u, r.holding = some u → (s.unit u).mark = some i → (t.unit u).mark = none) ∧
    (∀ u, r.holding = some u → (s.unit u).state = .draining → (∀ j, j ≠ i → s.holding j ≠ some u) →
      (t.unit u).state = .offline ∧ t.drained.get u = true) ∧
    ∀ u : UnitId, (r.holding ≠ some u ∨ (s.unit u).state ≠ .draining ∨ ∃ j, j ≠ i ∧ s.holding j = some u) →
      (t.unit u).state = (s.unit u).state ∧ t.drained.get u = s.drained.get u

/-- From s to t, of every record but the one in slot i at most the mode, or a wait that is granted, changes, and none of
them begins or ends. -/
def OthersStand (s t : State) (i : SlotId) : Prop :=
  (∀ j q, j ≠ i → t.record j = some q → s.record j = some q ∨
      s.record j = some { q with mode := .shared } ∨
      ∃ u tt d c, q.standing = .held u 1 (effectiveDuration d (s.unit u).config.limit) ∧
        s.record j = some { q with standing := .waiting tt d c }) ∧
    ∀ j, j ≠ i → s.record j ≠ none → t.record j ≠ none

/-! ### The laws -/

/-- R94: the depth of every HELD or RECALLED record lies between 1 and 15. -/
def DepthLaw (s : State) : Prop :=
  ∀ i r d, s.record i = some r → r.standing.depth = some d → 1 ≤ d ∧ d ≤ 15

/-- R100: the record of a pending upgrade is a SHARED HELD holder of that unit. -/
def MarkLaw (s : State) : Prop :=
  ∀ u i, (s.unit u).mark = some i → ∃ r, s.record i = some r ∧ r.isHeldOn u = true ∧ r.mode = Mode.shared

/-- R5: an EXCLUSIVE holder is the only holder; the SHARED holders are at most the shared capacity, which is at least 1;
an OFFLINE unit, whose capacity may be written, has no holder (R10). -/
def HolderLaw (s : State) : Prop :=
  ∀ u, 1 ≤ (s.unit u).config.capacity ∧
    (∀ i, i ∈ s.holders u → s.isShared i = false → s.holders u = [i]) ∧
    (s.holders u).countP s.isShared ≤ (s.unit u).config.capacity ∧
    ((s.unit u).state = UnitState.offline → s.holders u = [])

/-- A queue of one target holds exactly the WAITING records of that target, each once, and no two of one agent. -/
def QueueOf (s : State) (t : Target) (queue : List SlotId) : Prop :=
  queue.Nodup ∧
    (∀ i, i ∈ queue ↔ ∃ r d c, s.record i = some r ∧ r.standing = Standing.waiting t d c) ∧
    ∀ i j, i ∈ queue → j ∈ queue → s.owner i = s.owner j → i = j

/-- R56: every WAITING record stands in the one queue of its unit or pool, every queue holds only WAITING records, and no
queue holds two records of one agent. -/
def QueueLaw (s : State) : Prop :=
  (∀ u, QueueOf s (.unit u) (s.unit u).queue) ∧ ∀ p, QueueOf s (.pool p) (s.pool p).queue

/-- R10 and R161: an OFFLINE unit has no holder, no waiter and no mark; a DRAINING unit has no waiter, no mark and only
RECALLED holders. -/
def ServiceLaw (s : State) : Prop :=
  ∀ u,
    ((s.unit u).state = UnitState.offline →
      s.holders u = [] ∧ (s.unit u).queue = [] ∧ (s.unit u).mark = none) ∧
    ((s.unit u).state = UnitState.draining →
      (s.unit u).queue = [] ∧ (s.unit u).mark = none ∧
        ∀ i r, s.record i = some r → r.isHeldOn u = false)

/-- R38: no agent has more records than its quota, and no quota is above 8. -/
def QuotaLaw (s : State) : Prop :=
  ∀ a, s.recordCount a ≤ (s.agent a).quota ∧ (s.agent a).quota ≤ 8

/-- R30 and R137: the agent of a SPENT record is ATTACHED; a DETACHED agent has no record; a DETACHING agent has at
least one (R145); and neither of the two has a notice. -/
def SessionLaw (s : State) : Prop :=
  (∀ i r, s.record i = some r → (s.agent r.agent).state ≠ AgentState.detached ∧
      (r.isSpent = true → (s.agent r.agent).state = AgentState.attached)) ∧
    ∀ a, ((s.agent a).state ≠ AgentState.attached → (s.notice a).entries = []) ∧
      ((s.agent a).state = AgentState.detaching → ∃ i, s.owner i = some a)

/-- R126 and R122: each entry of an agent's queue reports, under its handle and its target, on one of that agent's
records that no longer waits; no two entries report on one record; and every SPENT record has an entry. -/
def NoticeLaw (s : State) : Prop :=
  (∀ a n, n ∈ (s.notice a).entries → ∃ r, s.record n.handle.slot = some r ∧ r.agent = a ∧
      s.handle n.handle.slot = n.handle ∧ r.isWaiting = false ∧ r.target = n.target) ∧
    (∀ a, ((s.notice a).entries.map Notice.handle).Nodup) ∧
    ∀ i r, s.record i = some r → r.isSpent = true → s.hasEntry r.agent i = true

/-- R155: no agent without clearance has a HELD, RECALLED or unit-WAITING record on a unit at or above the band
ceiling. -/
def BandLaw (s : State) : Prop :=
  ∀ i r u, s.record i = some r →
    (r.holding = some u ∨ ∃ d c, r.standing = Standing.waiting (.unit u) d c) → s.bandPermits r.agent u = true

/-- Table 1-1 and Table 9-2: every configuration field lies in its range. -/
def RangeLaw (s : State) : Prop :=
  (∀ u, 1 ≤ (s.unit u).config.capacity ∧ (s.unit u).config.capacity ≤ 4 ∧ (s.unit u).config.grace ≤ 255 ∧
      ∀ l, (s.unit u).config.limit = some l → 1 ≤ l ∧ l ≤ 4095) ∧
    s.ceiling ≤ 64 ∧ 16 ≤ s.timer.divider ∧ s.timer.divider ≤ 65536

/-- Table 6-3: the range of a countdown by the record's state, and that of a requested duration (Table 2-1). -/
def Standing.countdownInRange : Standing → Prop
  | .waiting _ requested c => requested ≤ 4095 ∧ ∀ n, c = some n → 1 ≤ n ∧ n ≤ 4094
  | .held _ _ c => ∀ n, c = some n → 1 ≤ n ∧ n ≤ 4095
  | .recalled _ _ g => 1 ≤ g ∧ g ≤ 255
  | .spent _ _ => True

/-- R25: every countdown lies in the range of its record's state. -/
def CountdownLaw (s : State) : Prop := ∀ i r, s.record i = some r → r.standing.countdownInRange

/-- R108 and R109: the divider count stays below the divider and at 0 unless the source is INTERNAL; the TKIN reference
is none unless the source is PIN. -/
def TimerLaw (s : State) : Prop :=
  s.timer.count < s.timer.divider ∧
    (s.timer.source ≠ TickSource.internal → s.timer.count = 0) ∧
    (s.timer.source ≠ TickSource.pin → s.timer.reference = none)

/-- R111: a tick in flight that will still lower a countdown finds, in its slot, a record with a present countdown. -/
def ArrivalLaw (s : State) : Prop :=
  ∀ a, a ∈ s.timer.inFlight → a.stale = false → ∃ r, s.record a.slot = some r ∧ r.standing.countdown.isSome = true

/-- R23: a LEASE is spent as EXPIRED or REVOKED, a wait as TIMED_OUT or WITHDRAWN. -/
def Claim.mayEndAs : Claim → SpentCause → Prop
  | .lease _, c => c = .expired ∨ c = .revoked
  | .unitWait _, c => c = .timedOut ∨ c = .withdrawn
  | .poolWait _, c => c = .timedOut ∨ c = .withdrawn

/-- R23: the mode of a POOL_WAIT is EXCLUSIVE, and every SPENT record has a cause that its kind admits. -/
def KindLaw (s : State) : Prop :=
  ∀ i r, s.record i = some r →
    (∀ p d c, r.standing = Standing.waiting (.pool p) d c → r.mode = Mode.exclusive) ∧
    ∀ k c, r.standing = Standing.spent k c → k.mayEndAs c

/-- R48: an agent has at most one holder record on a unit, and none on a unit in whose queue it waits. -/
def OneHoldLaw (s : State) : Prop :=
  (∀ i j r q u, s.record i = some r → s.record j = some q → r.agent = q.agent → r.holding = some u →
      q.holding = some u → i = j) ∧
    ∀ i j r q u d c, s.record i = some r → s.record j = some q → r.agent = q.agent → r.holding = some u →
      q.standing ≠ Standing.waiting (.unit u) d c

/-- An OPEN unit without a holder has no eligible waiter in its own queue (R74). -/
def ServedLaw (s : State) : Prop :=
  ∀ u, (s.unit u).state = UnitState.opened → s.holders u = [] → ∀ i, i ∈ (s.unit u).queue → s.eligible i u = false

/-! ### The configuration state (R167) -/

/-- The configuration state: unit configuration fields, pool order configuration, band ceiling, clearances, quotas and
tick setup (09 section 9.6). -/
structure Configuration where
  units : Vector UnitConfig 64
  pools : Vector (OrderMode × Bool) 8
  ceiling : Nat
  clearances : Vector Bool 16
  quotas : Vector Nat 16
  source : TickSource
  divider : Nat
  deriving DecidableEq

/-- The configuration state of the part. -/
def State.configuration (s : State) : Configuration :=
  { units := s.units.map UnitRecord.config
    pools := s.pools.map fun p => (p.order, p.rotate)
    ceiling := s.ceiling
    clearances := s.agents.map AgentRecord.clearance
    quotas := s.agents.map AgentRecord.quota
    source := s.timer.source
    divider := s.timer.divider }

end Sys2Proof.Machine
end

