-- ==== Sys2Proof/Certificates/Slice0/Obligations.lean ====
section
/-! DEFINITION. The statements for the provers. A command at an agent station is stated where that station takes commands
(`Ready`), a control command where the supervisor agent writes it (`Supervises`); the three other situations of the port
(BUSY, refused, in reset) have statements of their own that cover every command. An equation `exec c s = .next t` states
the whole next state, so what `t` does not name is unchanged. -/

section Statements

open Sys2Proof Sys2Proof.Machine

/-! ### The machine -/

/-- A step takes the command at the front of the queue and runs it against the state with the queue's rest. On an empty
queue the block idles: DESIGN CHOICE, notes/assumptions/3.md. -/
def Obligations.StepTakesTheFrontCommand : Prop :=
  (∀ (c : Instr) (rest : List Instr) (s : State), s.pending = c :: rest → step s = exec c { s with pending := rest }) ∧
    ∀ s : State, s.pending = [] → step s = .next s

/-- Every command and event answers a next state in every state. It leaves the queue alone; the supervisor number changes
at POWER_ON alone, and RST_N's level at HARDWARE_RESET and its release alone (that POWER_ON keeps that level is
the model's choice, notes/assumptions/2.md). -/
def Obligations.EveryCommandCompletes : Prop :=
  ∀ (c : Instr) (s : State), ∃ t, exec c s = .next t ∧ t.pending = s.pending ∧
    ((∀ x, c ≠ .powerOn x) → t.supervisor = s.supervisor) ∧
    (c ≠ .hardwareReset → c ≠ .hardwareResetRelease → t.inReset = s.inReset)

/-- A write of CMD takes the command that bits 7:0 of the data name at that station, at whichever of the table's rows the
access is taken (that the row UNDEFINED_COMMAND takes the command its code names is the model's choice,
notes/assumptions/6.md); a code that names none is refused BAD_COMMAND with location 0, and CMD reads the code. -/
def Obligations.CommandCodes : Prop :=
  (∀ (w : Window) (aid : AgentId) (data : Word) (s : State) (c : Instr),
      commandOf w aid (data.toNat % 256) = some c →
        portWrite aid w.cmdOffset data s = exec c s ∧ exec (.undefinedCommand aid w data) s = exec c s) ∧
    (∀ (aid : AgentId) (data : Word) (s : State), Ready aid s → commandOf .agent aid (data.toNat % 256) = none →
      Refuses (.undefinedCommand aid .agent data) s aid (BitVec.ofNat 32 (data.toNat % 256)) Reason.badCommand 0) ∧
    ∀ (aid : AgentId) (data : Word) (s : State), Supervises aid s → commandOf .control aid (data.toNat % 256) = none →
      RefusesControl (.undefinedCommand aid .control data) s (BitVec.ofNat 32 (data.toNat % 256)) Reason.badCommand 0

/-- A write to an argument word is stored and changes that word alone; a write to RESP0, RESP1 or STAT, to PART_ID or to
an offset outside Table 10-1 is ignored. A read by an agent returns the word of Table 10-1 at that offset: its own
station's, the control station's for the supervisor agent, PART_ID at 07Ch for any agent, and 0 elsewhere. A read drives
D with that word, changes nothing else, and asserts ERR_N only where the access is discarded. -/
def Obligations.StationWords : Prop :=
  (∀ (aid : AgentId) (data : Word) (s : State), s.inReset = false →
       (s.busy aid = false →
         exec (.argumentWrite aid 0 data) s = .next (s.quiet.setStation aid { s.station aid with arg0 := data }) ∧
         exec (.argumentWrite aid 1 data) s = .next (s.quiet.setStation aid { s.station aid with arg1 := data }) ∧
         exec (.argumentWrite aid 2 data) s = .next (s.quiet.setStation aid { s.station aid with arg2 := data })) ∧
       (aid = s.supervisor →
         exec (.argumentWrite aid 16 data) s = .next (s.quiet.setControl { s.control with arg0 := data }) ∧
         exec (.argumentWrite aid 17 data) s = .next (s.quiet.setControl { s.control with arg1 := data }) ∧
         exec (.argumentWrite aid 18 data) s = .next (s.quiet.setControl { s.control with arg2 := data }) ∧
         ∀ o : WordOffset, 20 ≤ o.val → o.val ≤ 22 → exec (.argumentWrite aid o data) s = .next s.quiet) ∧
       ∀ o : WordOffset, (4 ≤ o.val ∧ o.val ≤ 15) ∨ 23 ≤ o.val → exec (.argumentWrite aid o data) s = .next s.quiet) ∧
  ∀ (aid : AgentId) (s : State), s.inReset = false →
      (s.busy aid = false →
        s.readWord aid 0 = (s.station aid).arg0 ∧ s.readWord aid 1 = (s.station aid).arg1 ∧
        s.readWord aid 2 = (s.station aid).arg2 ∧ s.readWord aid 3 = (s.station aid).cmd ∧
        s.readWord aid 4 = (s.station aid).resp0 ∧ s.readWord aid 5 = (s.station aid).resp1 ∧
        s.readWord aid 6 = (s.station aid).stat) ∧
      (aid = s.supervisor →
        s.readWord aid 16 = s.control.arg0 ∧ s.readWord aid 17 = s.control.arg1 ∧ s.readWord aid 18 = s.control.arg2 ∧
        s.readWord aid 19 = s.control.cmd ∧ s.readWord aid 20 = s.control.resp0 ∧ s.readWord aid 21 = s.control.resp1 ∧
        s.readWord aid 22 = s.control.stat) ∧
      (aid ≠ s.supervisor → ∀ o : WordOffset, 16 ≤ o.val → o.val ≤ 22 → s.readWord aid o = 0) ∧
      s.readWord aid 31 = 0x64165A01#32 ∧
      (∀ o : WordOffset, (7 ≤ o.val ∧ o.val ≤ 15) ∨ (23 ≤ o.val ∧ o.val ≤ 30) → s.readWord aid o = 0) ∧
      ∀ o : WordOffset, portRead aid o s = .next (s.setPort
        { err := decide (16 ≤ o.val ∧ o.val ≤ 22 ∧ aid ≠ s.supervisor), data := some (s.readWord aid o) })

/-- While an agent's walk runs its station is BUSY: no command of the agent is taken, no write changes a word, ERR_N is
not driven, STAT reads BUSY with bit 31 set, RESP0 and RESP1 read 0, and CMD and the argument words read as they stand.
The same write at a station that is READY has its effect there (notes/assumptions/6.md). -/
def Obligations.BusyStation : Prop :=
  ∀ (aid : AgentId) (s : State), s.inReset = false →
    (s.busy aid = true →
      (∀ (code : Nat) (c : Instr), agentCommand aid code = some c → exec c s = .next s.quiet) ∧
      (∀ data : Word, exec (.undefinedCommand aid .agent data) s = .next s.quiet) ∧
      (∀ (o : WordOffset) (data : Word), o.val ≤ 6 → exec (.busyStationWrite aid o data) s = .next s.quiet ∧
        exec (.argumentWrite aid o data) s = .next s.quiet) ∧
      s.readWord aid 0 = (s.station aid).arg0 ∧ s.readWord aid 1 = (s.station aid).arg1 ∧
      s.readWord aid 2 = (s.station aid).arg2 ∧ s.readWord aid 3 = (s.station aid).cmd ∧
      s.readWord aid 4 = 0 ∧ s.readWord aid 5 = 0 ∧ s.readWord aid 6 = 0x80000006#32) ∧
    (s.busy aid = false → ∀ data : Word,
      exec (.busyStationWrite aid 0 data) s = .next (s.quiet.setStation aid { s.station aid with arg0 := data }) ∧
      exec (.busyStationWrite aid 1 data) s = .next (s.quiet.setStation aid { s.station aid with arg1 := data }) ∧
      exec (.busyStationWrite aid 2 data) s = .next (s.quiet.setStation aid { s.station aid with arg2 := data }) ∧
      exec (.busyStationWrite aid 3 data) s = exec (.undefinedCommand aid .agent data) s)

/-- An access to the control window by another agent than the supervisor is discarded: nothing changes, a read returns 0,
and ERR_N is asserted; the next event finds ERR_N released (notes/assumptions/12.md). The supervisor's own access
reaches the station, at the row CONTROL_WINDOW_REFUSED too, and a write of CMD there takes the command (that this row has
the effect of the same access there is the model's choice, notes/assumptions/6.md). -/
def Obligations.ControlWindow : Prop :=
  (∀ (aid : AgentId) (s : State), s.inReset = false → aid ≠ s.supervisor →
    (∀ (code : Nat) (c : Instr), controlCommand aid code = some c →
      exec c s = .next (s.setPort { err := true, data := none })) ∧
    (∀ data : Word, exec (.undefinedCommand aid .control data) s = .next (s.setPort { err := true, data := none })) ∧
    ∀ o : WordOffset, 16 ≤ o.val → o.val ≤ 22 →
      exec (.controlWindowRefused aid o .read) s = .next (s.setPort { err := true, data := some 0 }) ∧
      ∀ data : Word, exec (.controlWindowRefused aid o (.write data)) s = .next (s.setPort { err := true, data := none }) ∧
        exec (.argumentWrite aid o data) s = .next (s.setPort { err := true, data := none })) ∧
  (∀ s : State, s.inReset = false → ∀ o : WordOffset, 16 ≤ o.val → o.val ≤ 22 →
    exec (.controlWindowRefused s.supervisor o .read) s =
        .next (s.setPort { err := false, data := some (s.control.word (o.val - 16)) }) ∧
      ∀ data : Word, exec (.controlWindowRefused s.supervisor o (.write data)) s =
        if o.val = 19 then exec (.undefinedCommand s.supervisor .control data) s
        else exec (.argumentWrite s.supervisor o data) s) ∧
  ∀ (c : Instr) (s : State), exec c s.quiet = exec c s

/-- While RST_N is asserted a write is ignored, a read returns 0 and ERR_N is not asserted. (That no event of the part
itself happens, and that PART_ID reads 0, are notes/assumptions/18.md and 17.md.) -/
def Obligations.PartInReset : Prop :=
  ∀ s : State, s.inReset = true →
    (∀ c : Instr, c ≠ .hardwareReset → c ≠ .hardwareResetRelease → (∀ x, c ≠ .powerOn x) →
      (∀ a o, c ≠ .controlWindowRefused a o .read) → exec c s = .next s.quiet) ∧
    (∀ a o, exec (.controlWindowRefused a o .read) s = .next (s.setPort { err := false, data := some 0 })) ∧
    ∀ a o, s.readWord a o = 0

/-! ### Reset and power -/

/-- POWER_ON sets every register to the value the spec gives, the serials to 0, and samples SUPV[3:0] as the supervisor
number. That it keeps RST_N's level, of which the spec says nothing, is the model's choice (DESIGN CHOICE,
notes/assumptions/2.md), and the queue of waiting events, which it leaves, is the model's own (notes/assumptions/3.md).
The part right after reset is what POWER_ON leaves, with the straps of notes/assumptions/1.md and RST_N released
(notes/assumptions/2.md): the model's choices too. -/
def Obligations.PowerOn : Prop :=
  (∀ (x : AgentId) (s : State), ∃ t, exec (.powerOn x) s = .next t ∧
    (∀ u, t.unit u =
      { config := { pool := none, capacity := 1, order := .arrival, rotate := false, limit := none, grace := 16 }
        state := .offline, queue := [], mark := none, bottom := 15 }) ∧
    (∀ p, t.pool p = { order := .arrival, rotate := false, bottom := 15, queue := [] }) ∧
    (∀ i, t.slot i = { serial := 0, record := none }) ∧
    (∀ a, t.agent a = { state := .detached, quota := 6, clearance := decide (a = x), held := false }) ∧
    (∀ a, t.notice a = { entries := [], attention := false }) ∧
    (∀ a, t.station a = ⟨0, 0, 0, 0, 0, 0, 0⟩) ∧ t.control = ⟨0, 0, 0, 0, 0, 0, 0⟩ ∧
    t.timer = { source := .off, divider := 1024, count := 0, reference := none, inFlight := [] } ∧
    t.ceiling = 64 ∧ t.frozen = false ∧ (∀ u : UnitId, t.drained.get u = false) ∧
    (∀ a : AgentId, t.detached.get a = false) ∧ t.controlAttention = false ∧ t.supervisor = x ∧ t.port.err = false ∧
    t.inReset = s.inReset ∧ t.pending = s.pending) ∧
  exec (.powerOn Config.resetStraps) State.reset = .next State.reset

/-- HARDWARE_RESET empties the live state, sets every station word to 0 and keeps the serials, the frozen flag and the
supervisor number; the configuration state is kept if the part is frozen and returns to its defaults otherwise. The
release of RST_N changes nothing but that the port answers again. -/
def Obligations.HardwareReset : Prop :=
  (∀ s : State, ∃ t, exec .hardwareReset s = .next t ∧
    (∀ u, t.unit u =
      { config := if s.frozen then (s.unit u).config else
          { pool := none, capacity := 1, order := .arrival, rotate := false, limit := none, grace := 16 }
        state := .offline, queue := [], mark := none, bottom := 15 }) ∧
    (∀ p, t.pool p =
      { order := if s.frozen then (s.pool p).order else .arrival
        rotate := if s.frozen then (s.pool p).rotate else false
        bottom := 15, queue := [] }) ∧
    (∀ i, t.slot i = { serial := (s.slot i).serial, record := none }) ∧
    (∀ a, t.agent a =
      { state := .detached
        quota := if s.frozen then (s.agent a).quota else 6
        clearance := if s.frozen then (s.agent a).clearance else decide (a = s.supervisor)
        held := false }) ∧
    (∀ a, t.notice a = { entries := [], attention := false }) ∧
    (∀ a, t.station a = ⟨0, 0, 0, 0, 0, 0, 0⟩) ∧ t.control = ⟨0, 0, 0, 0, 0, 0, 0⟩ ∧
    t.timer =
      { source := if s.frozen then s.timer.source else .off
        divider := if s.frozen then s.timer.divider else 1024
        count := 0, reference := none, inFlight := [] } ∧
    t.ceiling = (if s.frozen then s.ceiling else 64) ∧ t.frozen = s.frozen ∧
    (∀ u : UnitId, t.drained.get u = false) ∧ (∀ a : AgentId, t.detached.get a = false) ∧
    t.controlAttention = false ∧ t.supervisor = s.supervisor ∧ t.port.err = false ∧ t.inReset = true ∧
    t.pending = s.pending) ∧
  ∀ s : State, exec .hardwareResetRelease s = .next { s.quiet with inReset := false }

/-- RESET_LIVE retires every record, empties every queue, mark and notice queue, clears the held flags, ends every drain
and every walk into the completion sets, and keeps the configuration state, the serials, the attention enables and the
lease timer; it answers with the units and agents that entered the sets (notes/assumptions/16.md says what is counted
where a number already stood in its set). -/
def Obligations.ResetLive : Prop :=
  ∀ (aid : AgentId) (s : State), Supervises aid s → ∃ t, exec (.resetLive aid) s = .next t ∧
    (∀ u, t.unit u =
      { config := (s.unit u).config
        state := if (s.unit u).state = .draining then .offline else (s.unit u).state
        queue := [], mark := none, bottom := 15 }) ∧
    (∀ p, t.pool p = { order := (s.pool p).order, rotate := (s.pool p).rotate, bottom := 15, queue := [] }) ∧
    (∀ i, t.slot i = { serial := (s.slot i).serial, record := none }) ∧
    (∀ a, t.agent a =
      { state := if (s.agent a).state = .detaching then .detached else (s.agent a).state
        quota := (s.agent a).quota, clearance := (s.agent a).clearance, held := false }) ∧
    (∀ a, t.notice a = { entries := [], attention := (s.notice a).attention }) ∧
    (∀ a, t.station a =
      if (s.agent a).state = .detaching then { s.station a with resp0 := 0, resp1 := 0, stat := 0 } else s.station a) ∧
    t.control =
      { s.control with
        cmd := 0x31, stat := 0
        resp0 := place 0 7 (allUnits.countP fun u => (s.unit u).state == .draining) |||
          place 16 5 (allAgents.countP fun a => (s.agent a).state == .detaching)
        resp1 := 0 } ∧
    t.timer.source = s.timer.source ∧ t.timer.divider = s.timer.divider ∧ t.timer.count = s.timer.count ∧
    t.timer.reference = s.timer.reference ∧ t.timer.inFlight.map Arrival.slot = s.timer.inFlight.map Arrival.slot ∧
    (∀ a, a ∈ t.timer.inFlight → a.stale = true) ∧
    t.ceiling = s.ceiling ∧ t.frozen = s.frozen ∧
    (∀ u : UnitId, t.drained.get u = (s.drained.get u || (s.unit u).state == .draining)) ∧
    (∀ a : AgentId, t.detached.get a = (s.detached.get a || (s.agent a).state == .detaching)) ∧
    t.controlAttention = s.controlAttention ∧ t.supervisor = s.supervisor ∧ t.inReset = false ∧
    t.port = { err := false, data := none } ∧ t.pending = s.pending

/-- Every law of the spec that the statements below speak of holds right after reset. -/
def Obligations.LawsHoldAtReset : Prop :=
  DepthLaw State.reset ∧ MarkLaw State.reset ∧ HolderLaw State.reset ∧ QueueLaw State.reset ∧ ServiceLaw State.reset ∧
    QuotaLaw State.reset ∧ SessionLaw State.reset ∧ NoticeLaw State.reset ∧ BandLaw State.reset ∧
    RangeLaw State.reset ∧ CountdownLaw State.reset ∧ TimerLaw State.reset ∧ ArrivalLaw State.reset ∧
    KindLaw State.reset ∧ OneHoldLaw State.reset ∧ ServedLaw State.reset

/-! ### Formats -/

/-- Every field of the record word, the record status word, the notice result word and the status word reads, at the bits
of Table 10-4 and Table 10-6, the number that was put there, and `place` puts a value in its field alone. The numbers
themselves are those of Table 10-3, in answers and in arguments, and the statuses and reasons those of Table 10-7. -/
def Obligations.WordFormats : Prop :=
  (∀ low width v : Nat, low + width ≤ 32 → ∀ k, k < 32 →
    (place low width v).getLsbD k = (decide (low ≤ k ∧ k < low + width) && v.testBit (k - low))) ∧
  (∀ (h : Handle) (t : Target),
    bitField h.word 0 8 = h.slot.val ∧ bitField h.word 8 8 = h.serial.toNat ∧ bitField h.word 16 16 = 0 ∧
    bitField t.word 0 16 = 0 ∧ bitField t.word 16 6 = t.number ∧ bitField t.word 22 1 = 0 ∧
    bitField t.word 23 1 = t.marker ∧ bitField t.word 24 8 = 0 ∧
    bitField (recordWord h t) 0 8 = h.slot.val ∧ bitField (recordWord h t) 8 8 = h.serial.toNat ∧
    bitField (recordWord h t) 16 6 = t.number ∧ bitField (recordWord h t) 23 1 = t.marker ∧
    bitField (recordWord h t) 22 1 = 0 ∧ bitField (recordWord h t) 24 8 = 0 ∧
    ∀ a : AgentId, bitField (recordWordWithAgent h t a) 0 24 = bitField (recordWord h t) 0 24 ∧
      bitField (recordWordWithAgent h t a) 24 8 = a.val) ∧
  (∀ (s : State) (i : SlotId) (r : Record), r.standing.depth.getD 0 ≤ 15 → r.standing.countdown.getD 0 ≤ 4095 →
    bitField (s.statusWord i r) 0 3 = r.standing.stateNo ∧ bitField (s.statusWord i r) 4 2 = r.standing.claim.kindNo ∧
    bitField (s.statusWord i r) 6 1 = r.mode.no ∧ bitField (s.statusWord i r) 7 1 = flagNo (s.upgradePending i) ∧
    bitField (s.statusWord i r) 8 4 = r.standing.depth.getD 0 ∧ bitField (s.statusWord i r) 12 3 = r.standing.causeNo ∧
    bitField (s.statusWord i r) 16 12 = r.standing.countdown.getD 0) ∧
  (∀ (n : Notice) (k : Nat), k ≤ 7 →
    bitField (noticeWord n k) 0 8 = n.handle.slot.val ∧ bitField (noticeWord n k) 8 8 = n.handle.serial.toNat ∧
    bitField (noticeWord n k) 16 6 = n.target.number ∧ bitField (noticeWord n k) 23 1 = n.target.marker ∧
    bitField (noticeWord n k) 24 3 = n.kind.no ∧ bitField (noticeWord n k) 28 4 = k) ∧
  (∀ reason location : Nat, reason ≤ 22 → location ≤ 63 →
    bitField (Status.refused reason location).word 0 8 = 7 ∧
    bitField (Status.refused reason location).word 8 8 = reason ∧
    bitField (Status.refused reason location).word 16 16 = location) ∧
  (Mode.shared.no = 0 ∧ Mode.exclusive.no = 1 ∧ flagNo false = 0 ∧ flagNo true = 1 ∧
    TickSource.off.no = 0 ∧ TickSource.pin.no = 1 ∧ TickSource.internal.no = 2 ∧
    (∀ u, (Target.unit u).marker = 0 ∧ (Target.unit u).number = u.val) ∧
    (∀ p, (Target.pool p).marker = 1 ∧ (Target.pool p).number = p.val) ∧
    (∀ t d c, (Standing.waiting t d c).stateNo = 1) ∧ (∀ u d c, (Standing.held u d c).stateNo = 2) ∧
    (∀ u d g, (Standing.recalled u d g).stateNo = 3) ∧ (∀ k c, (Standing.spent k c).stateNo = 4) ∧
    (∀ u, (Claim.unitWait u).kindNo = 0) ∧ (∀ p, (Claim.poolWait p).kindNo = 1) ∧ (∀ u, (Claim.lease u).kindNo = 2) ∧
    (∀ t d c, (Standing.waiting t d c).causeNo = 0) ∧ (∀ u d c, (Standing.held u d c).causeNo = 0) ∧
    (∀ u d g, (Standing.recalled u d g).causeNo = 0) ∧ (∀ k c, (Standing.spent k c).causeNo = c.no) ∧
    SpentCause.expired.no = 1 ∧ SpentCause.revoked.no = 2 ∧ SpentCause.timedOut.no = 3 ∧ SpentCause.withdrawn.no = 4 ∧
    NoticeKind.granted.no = 1 ∧ NoticeKind.upgraded.no = 2 ∧ NoticeKind.recalled.no = 3 ∧ NoticeKind.expired.no = 4 ∧
    NoticeKind.revoked.no = 5 ∧ NoticeKind.timedOut.no = 6 ∧ NoticeKind.withdrawn.no = 7 ∧
    UnitState.offline.no = 0 ∧ UnitState.opened.no = 1 ∧ UnitState.draining.no = 2 ∧
    holderModeNo none = 0 ∧ holderModeNo (some .shared) = 1 ∧ holderModeNo (some .exclusive) = 2) ∧
  ((∀ n m, modeOf n = some m ↔ m.no = n) ∧ (∀ n b, flagOf n = some b ↔ flagNo b = n) ∧
    (∀ n x, sourceOf n = some x ↔ x.no = n) ∧ Machine.orderOf 0 = some .arrival ∧
    Machine.orderOf 1 = some .ring ∧
    ∀ n, 2 ≤ n → Machine.orderOf n = none) ∧
  (Status.ok.word = 0 ∧ Status.granted.word = 1 ∧ Status.queued.word = 2 ∧ Status.lapsed.word = 3 ∧
    Status.stale.word = 4 ∧ Status.alreadyGranted.word = 5 ∧ busyWord = 6 ||| place 31 1 1) ∧
  [Reason.badCommand, Reason.badArgument, Reason.notAttached, Reason.alreadyAttached, Reason.detaching, Reason.noUnit,
    Reason.noPool, Reason.unitState, Reason.band, Reason.mode, Reason.depth, Reason.alreadyWaiting, Reason.quota,
    Reason.noRecord, Reason.unavailable, Reason.notHolder, Reason.recalled, Reason.conflict, Reason.frozen,
    Reason.inUse, Reason.bandOccupied, Reason.quotaInUse] =
  [1, 2, 3, 4, 5, 6, 7, 8, 9, 10, 11, 12, 13, 14, 15, 16, 17, 18, 19, 20, 21, 22]

/-! ### Agent sessions -/

/-- ATTACH: refused ALREADY_ATTACHED, or QUOTA where the quota is 0; otherwise the agent becomes ATTACHED with its
attention enable on and its held flag clear, and its quota and clearance are answered. (A DETACHING agent's station is
BUSY: `BusyStation`.) -/
def Obligations.Attach : Prop :=
  ∀ (aid : AgentId) (s : State), Ready aid s →
    ((s.agent aid).state = .attached → Refuses (.attach aid) s aid 0x01 Reason.alreadyAttached aid.val) ∧
    ((s.agent aid).state = .detached →
      ((s.agent aid).quota = 0 → Refuses (.attach aid) s aid 0x01 Reason.quota aid.val) ∧
      (0 < (s.agent aid).quota →
        exec (.attach aid) s = .next
          (((s.replied aid 0x01
              (.ok (place 0 4 (s.agent aid).quota ||| place 8 1 (flagNo (s.clearance aid))) 0)).setAgent aid
            { s.agent aid with state := .attached, held := false }).setNotice aid
            { s.notice aid with attention := true })))

/-- DETACH and DETACH_AGENT: refused NOT_ATTACHED, DETACHING or BAD_ARGUMENT; otherwise the agent's walk begins in the
same event. DETACH_AGENT is answered OK at once, and the departing agent's CMD reads 0 from then on. The beginning of
the walk of agent a: a becomes DETACHING, its notice queue is emptied, its SPENT records are retired and every other
record stands; where no record is left the walk ends at once: a is DETACHED, its held flag clear, and it enters the
detached set. No pass runs: units, pools, other agents, the other notices and the configuration are as before, and so
are every slot's serial and the ticks in flight, but that the arrivals for a retired record, and those alone, become
stale. -/
def Obligations.Detach : Prop :=
  ((∀ (aid : AgentId) (s : State), Ready aid s →
       ((s.agent aid).state = .detached → Refuses (.detach aid) s aid 0x02 Reason.notAttached aid.val) ∧
       ((s.agent aid).state = .attached → exec (.detach aid) s = .next ((s.taken aid 0x02).beginWalk aid))) ∧
     ∀ (aid : AgentId) (s : State), Supervises aid s →
       (15 < bitField s.control.arg0 0 8 → RefusesControl (.detachAgent aid) s 0x2E Reason.badArgument 0) ∧
       ∀ a : AgentId, bitField s.control.arg0 0 8 = a.val →
         ((s.agent a).state = .detached → RefusesControl (.detachAgent aid) s 0x2E Reason.notAttached a.val) ∧
         ((s.agent a).state = .detaching → RefusesControl (.detachAgent aid) s 0x2E Reason.detaching a.val) ∧
         ((s.agent a).state = .attached →
           exec (.detachAgent aid) s = .next ((((s.takenControl 0x2E).setStation a
             { s.station a with cmd := 0 }).beginWalk a).answerControl (.ok 0 0)))) ∧
  ∀ (a : AgentId) (s t : State), t = s.beginWalk a →
      (∀ i, t.record i =
        if (∃ r, s.record i = some r ∧ r.agent = a ∧ r.isSpent = true) then none else s.record i) ∧
      (∀ i, (t.slot i).serial = (s.slot i).serial) ∧
      t.notice a = { entries := [], attention := (s.notice a).attention } ∧
      ((∃ i r, s.record i = some r ∧ r.agent = a ∧ r.isSpent = false) →
        t.agent a = { s.agent a with state := .detaching } ∧ t.detached = s.detached) ∧
      ((∀ i r, s.record i = some r → r.agent = a → r.isSpent = true) →
        t.agent a = { s.agent a with state := .detached, held := false } ∧
        ∀ b : AgentId, t.detached.get b = (s.detached.get b || decide (b = a))) ∧
      t.station a = { s.station a with resp0 := 0, resp1 := 0, stat := 0 } ∧
      (∀ b, b ≠ a → t.agent b = s.agent b ∧ t.notice b = s.notice b ∧ t.station b = s.station b) ∧
      t.units = s.units ∧ t.pools = s.pools ∧ t.control = s.control ∧ t.ceiling = s.ceiling ∧ t.frozen = s.frozen ∧
      t.drained = s.drained ∧ t.controlAttention = s.controlAttention ∧ t.supervisor = s.supervisor ∧
      t.inReset = s.inReset ∧ t.port = s.port ∧ t.pending = s.pending ∧
      t.timer.source = s.timer.source ∧ t.timer.divider = s.timer.divider ∧ t.timer.count = s.timer.count ∧
      t.timer.reference = s.timer.reference ∧
      t.timer.inFlight = s.timer.inFlight.map fun x =>
        if t.record x.slot = s.record x.slot then x else { x with stale := true }

/-- The steps of the walk of agent a: while a has a WAITING record, the one in the lowest slot is retired by a
withdrawal step; after that, its holder record on the lowest-numbered unit is retired by a holding step. Where the walk
does not run, or has no such record, there is no such step and nothing changes (notes/assumptions/5.md). The end of a
walk: a DETACHING agent without a record becomes DETACHED, its held flag clear, its station READY with status OK and
response words 0, and it enters the detached set once. Any other agent has no walk to end. -/
def Obligations.WalkStepsAndEnd : Prop :=
  (∀ (a : AgentId) (s : State), s.inReset = false →
       ((s.agent a).state ≠ .detaching →
         exec (.withdrawalStep a) s = .next s.quiet ∧ exec (.holdingStep a) s = .next s.quiet) ∧
       ((s.agent a).state = .detaching →
         (∀ i r, s.record i = some r → r.agent = a → r.isWaiting = true →
           (∀ j q, j < i → s.record j = some q → q.agent = a → q.isWaiting = false) →
             exec (.withdrawalStep a) s = .next (s.quiet.retire i) ∧ exec (.holdingStep a) s = .next s.quiet) ∧
         ((∀ i r, s.record i = some r → r.agent = a → r.isWaiting = false) →
           exec (.withdrawalStep a) s = .next s.quiet ∧
           (∀ u i r, SoleHold s a u i r →
             (∀ j v, s.owner j = some a → s.holding j = some v → u ≤ v) →
               exec (.holdingStep a) s = .next (s.quiet.retire i)) ∧
           ((∀ i r, s.record i = some r → r.agent = a → r.holding = none) → exec (.holdingStep a) s = .next s.quiet)))) ∧
  ∀ (a : AgentId) (s : State), s.inReset = false →
      ((s.agent a).state = .detaching → s.recordCount a = 0 →
        exec (.walkEnd a) s = .next
          (((s.quiet.setAgent a { s.agent a with state := .detached, held := false }).setStation a
            { s.station a with resp0 := 0, resp1 := 0, stat := 0 }).addDetached a)) ∧
      ((s.agent a).state ≠ .detaching ∨ 0 < s.recordCount a → exec (.walkEnd a) s = .next s.quiet)

/-- The walk comes to its end: in every state of the walk one of the two steps takes away exactly one record of the
departing agent, so as many steps as it has records end its walk. -/
def Obligations.WalkProgress : Prop :=
  ∀ (a : AgentId) (s : State), SessionLaw s → s.inReset = false → (s.agent a).state = .detaching →
    ∃ c t, (c = .withdrawalStep a ∨ c = .holdingStep a) ∧ exec c s = .next t ∧
      t.recordCount a + 1 = s.recordCount a ∧
      (s.agent a).quota = (t.agent a).quota ∧
      (t.recordCount a = 0 → (t.agent a).state = .detached ∧ t.detached.get a = true ∧ t.readWord a 6 = 0) ∧
      (0 < t.recordCount a → (t.agent a).state = .detaching)

/-- HOLD_AGENT and RESUME_AGENT: the three refusals; where the agent's flag already stands as asked the answer is OK with
no item, and nothing changes; otherwise the flag is written, the passes run, unit passes on the units it waits for in
ascending number and, for RESUME_AGENT, then pool passes, and the waits it has after them are counted. -/
def Obligations.HoldAndResume : Prop :=
  ∀ (aid : AgentId) (s : State), Supervises aid s →
    (15 < bitField s.control.arg0 0 8 →
      RefusesControl (.holdAgent aid) s 0x2C Reason.badArgument 0 ∧
      RefusesControl (.resumeAgent aid) s 0x2D Reason.badArgument 0) ∧
    ∀ a : AgentId, bitField s.control.arg0 0 8 = a.val →
      ((s.agent a).state = .detached →
        RefusesControl (.holdAgent aid) s 0x2C Reason.notAttached a.val ∧
        RefusesControl (.resumeAgent aid) s 0x2D Reason.notAttached a.val) ∧
      ((s.agent a).state = .detaching →
        RefusesControl (.holdAgent aid) s 0x2C Reason.detaching a.val ∧
        RefusesControl (.resumeAgent aid) s 0x2D Reason.detaching a.val) ∧
      ((s.agent a).state = .attached →
        ((s.agent a).held = true →
          exec (.holdAgent aid) s = .next (s.repliedControl 0x2C (.ok 0 0)) ∧
          ∀ p, p = (((s.takenControl 0x2D).setAgent a { s.agent a with held := false }).unitPasses
              (allUnits.filter fun u => s.waitsIn a (s.unit u).queue)).poolPasses
              (allPools.filter fun p => s.waitsIn a (s.pool p).queue) →
            exec (.resumeAgent aid) s = .next (p.answerControl (.ok (place 0 4 (p.waitsOf a).length) 0))) ∧
        ((s.agent a).held = false →
          exec (.resumeAgent aid) s = .next (s.repliedControl 0x2D (.ok 0 0)) ∧
          ∀ p, p = ((s.takenControl 0x2C).setAgent a { s.agent a with held := true }).unitPasses
              (allUnits.filter fun u => s.waitsIn a (s.unit u).queue) →
            exec (.holdAgent aid) s = .next (p.answerControl (.ok (place 0 4 (p.waitsOf a).length) 0))))

/-- SET_QUOTA: FROZEN, BAD_ARGUMENT, BAD_ARGUMENT with the agent, QUOTA_IN_USE, in this order; otherwise the quota is
written, and the quota and the agent's record count are answered. -/
def Obligations.SetQuota : Prop :=
  ∀ (aid : AgentId) (s : State), Supervises aid s →
    (s.frozen = true → RefusesControl (.setQuota aid) s 0x25 Reason.frozen 0) ∧
    (s.frozen = false →
      (15 < bitField s.control.arg0 0 8 → RefusesControl (.setQuota aid) s 0x25 Reason.badArgument 0) ∧
      ∀ (a : AgentId) (q : Nat), bitField s.control.arg0 0 8 = a.val → bitField s.control.arg1 0 8 = q →
        (8 < q → RefusesControl (.setQuota aid) s 0x25 Reason.badArgument a.val) ∧
        (q ≤ 8 → q < s.recordCount a → RefusesControl (.setQuota aid) s 0x25 Reason.quotaInUse a.val) ∧
        (q ≤ 8 → s.recordCount a ≤ q →
          exec (.setQuota aid) s = .next
            ((s.repliedControl 0x25 (.ok (place 0 4 q ||| place 8 4 (s.recordCount a)) 0)).setAgent a
              { s.agent a with quota := q })))

/-! ### The unit table -/

/-- CONFIGURE_UNIT: FROZEN, NO_UNIT, BAD_ARGUMENT, UNIT_STATE, IN_USE, in this order; otherwise the six fields are
written together and nothing else changes. CONFIGURE_POOL: FROZEN, NO_POOL, BAD_ARGUMENT, IN_USE, in this order;
otherwise the order mode and rotate flag are written together and nothing else changes. -/
def Obligations.Configuring : Prop :=
  (∀ (aid : AgentId) (s : State), Supervises aid s →
       (s.frozen = true → RefusesControl (.configureUnit aid) s 0x21 Reason.frozen 0) ∧
       (s.frozen = false →
         (63 < bitField s.control.arg0 0 8 → RefusesControl (.configureUnit aid) s 0x21 Reason.noUnit 0) ∧
         ∀ u : UnitId, bitField s.control.arg0 0 8 = u.val →
           (s.control.unitConfigOutOfRange → RefusesControl (.configureUnit aid) s 0x21 Reason.badArgument u.val) ∧
           ∀ c : UnitConfig, c.SpelledIn s.control →
             ((s.unit u).state ≠ .offline → RefusesControl (.configureUnit aid) s 0x21 Reason.unitState u.val) ∧
             ((s.unit u).state = .offline →
               (∀ p, (s.unit u).config.pool = some p → c.pool ≠ some p →
                 (∀ v, (s.unit v).config.pool = some p → v = u) → (s.pool p).queue ≠ [] →
                   RefusesControl (.configureUnit aid) s 0x21 Reason.inUse p.val) ∧
               ((∀ p, (s.unit u).config.pool = some p → c.pool = some p ∨ (s.pool p).queue = [] ∨
                   ∃ v, (s.unit v).config.pool = some p ∧ v ≠ u) →
                 exec (.configureUnit aid) s =
                   .next ((s.repliedControl 0x21 (.ok 0 0)).setUnit u { s.unit u with config := c }))))) ∧
  ∀ (aid : AgentId) (s : State), Supervises aid s →
      (s.frozen = true → RefusesControl (.configurePool aid) s 0x22 Reason.frozen 0) ∧
      (s.frozen = false →
        (7 < bitField s.control.arg0 0 8 → RefusesControl (.configurePool aid) s 0x22 Reason.noPool 0) ∧
        ∀ p : PoolId, bitField s.control.arg0 0 8 = p.val →
          (1 < bitField s.control.arg1 8 2 ∨ 1 < bitField s.control.arg1 10 2 →
            RefusesControl (.configurePool aid) s 0x22 Reason.badArgument p.val) ∧
          ∀ (o : OrderMode) (b : Bool), bitField s.control.arg1 8 2 = (if o = .ring then 1 else 0) →
            bitField s.control.arg1 10 2 = flagNo b →
              ((s.pool p).queue ≠ [] → RefusesControl (.configurePool aid) s 0x22 Reason.inUse p.val) ∧
              ((s.pool p).queue = [] → exec (.configurePool aid) s =
                .next ((s.repliedControl 0x22 (.ok 0 0)).setPool p { s.pool p with order := o, rotate := b })))

/-- OPEN_UNIT makes an OFFLINE unit OPEN and RESTORE_UNIT a DRAINING one, each with the unit's grant pass before the
answer; in any other unit state they are refused UNIT_STATE, and NO_UNIT for a number above 63. SET_BOTTOM: BAD_ARGUMENT
for a kind that names neither, NO_UNIT or NO_POOL, BAD_ARGUMENT with the target; otherwise the target's bottom agent is
written, in any unit state, and the target's pass runs before the answer. -/
def Obligations.OpenRestoreAndSetBottom : Prop :=
  (∀ (aid : AgentId) (s : State), Supervises aid s →
       (63 < bitField s.control.arg0 0 8 →
         RefusesControl (.openUnit aid) s 0x27 Reason.noUnit 0 ∧ RefusesControl (.restoreUnit aid) s 0x29 Reason.noUnit 0) ∧
       ∀ u : UnitId, bitField s.control.arg0 0 8 = u.val →
         ((s.unit u).state ≠ .offline → RefusesControl (.openUnit aid) s 0x27 Reason.unitState u.val) ∧
         ((s.unit u).state = .offline → exec (.openUnit aid) s =
           .next ((((s.takenControl 0x27).setUnit u { s.unit u with state := .opened }).unitPass none u).answerControl
             (.ok 0 0))) ∧
         ((s.unit u).state ≠ .draining → RefusesControl (.restoreUnit aid) s 0x29 Reason.unitState u.val) ∧
         ((s.unit u).state = .draining →
           ∀ p, p = ((s.takenControl 0x29).setUnit u { s.unit u with state := .opened }).unitPass none u →
             exec (.restoreUnit aid) s = .next (p.answerControl (.ok (place 0 3 (p.holders u).length) 0)))) ∧
  ∀ (aid : AgentId) (s : State), Supervises aid s →
      (1 < bitField s.control.arg0 0 2 → RefusesControl (.setBottom aid) s 0x2F Reason.badArgument 0) ∧
      (bitField s.control.arg0 0 2 = 0 →
        (63 < bitField s.control.arg1 0 8 → RefusesControl (.setBottom aid) s 0x2F Reason.noUnit 0) ∧
        ∀ u : UnitId, bitField s.control.arg1 0 8 = u.val →
          (15 < bitField s.control.arg2 0 8 → RefusesControl (.setBottom aid) s 0x2F Reason.badArgument u.val) ∧
          ∀ a : AgentId, bitField s.control.arg2 0 8 = a.val → exec (.setBottom aid) s =
            .next ((((s.takenControl 0x2F).setUnit u { s.unit u with bottom := a }).unitPass none u).answerControl
              (.ok 0 0))) ∧
      (bitField s.control.arg0 0 2 = 1 →
        (7 < bitField s.control.arg1 0 8 → RefusesControl (.setBottom aid) s 0x2F Reason.noPool 0) ∧
        ∀ p : PoolId, bitField s.control.arg1 0 8 = p.val →
          (15 < bitField s.control.arg2 0 8 → RefusesControl (.setBottom aid) s 0x2F Reason.badArgument p.val) ∧
          ∀ a : AgentId, bitField s.control.arg2 0 8 = a.val → exec (.setBottom aid) s =
            .next ((((s.takenControl 0x2F).setPool p { s.pool p with bottom := a }).poolPass none p).answerControl
              (.ok 0 0)))

/-- QUERY_UNIT and LIST_HOLDER: refusals in their order; otherwise QUERY_UNIT answers the items of Table 1-5, and
LIST_HOLDER the holder that the index selects in ascending slot order: the present mark, its handle, agent, mode, state,
depth and upgrade-pending field, and 0 in every other field (R175). Nothing else changes. PROBE: NOT_ATTACHED, NO_UNIT;
otherwise the highest-ranked eligible waiter of the unit's queue is reported with its handle, agent and mode and with the
reason it waits (UPGRADE, HOLDERS or NONE), and 0 in every other field, or that there is none; nothing else changes. -/
def Obligations.UnitQueries : Prop :=
  ((∀ (aid : AgentId) (s : State), Ready aid s →
       (s.isAttached aid = false → Refuses (.queryUnit aid) s aid 0x0B Reason.notAttached aid.val) ∧
       (s.isAttached aid = true →
         (63 < bitField (s.station aid).arg0 0 8 → Refuses (.queryUnit aid) s aid 0x0B Reason.noUnit 0) ∧
         ∀ u : UnitId, bitField (s.station aid).arg0 0 8 = u.val →
           exec (.queryUnit aid) s = .next (s.replied aid 0x0B (.ok
             (place 0 2 (s.unit u).state.no ||| place 4 3 (s.holders u).length |||
               place 8 2 (holderModeNo (s.holderMode u)) ||| place 16 5 (s.unit u).queue.length |||
               place 24 1 (flagNo (s.unit u).mark.isSome) ||| place 28 4 (s.unit u).bottom.val) 0)))) ∧
     (∀ (aid : AgentId) (s : State), Supervises aid s →
       (63 < bitField s.control.arg0 0 8 → RefusesControl (.listHolder aid) s 0x35 Reason.noUnit 0) ∧
       ∀ (u : UnitId) (k : Nat), bitField s.control.arg0 0 8 = u.val → bitField s.control.arg1 0 8 = k →
         (3 < k → RefusesControl (.listHolder aid) s 0x35 Reason.badArgument u.val) ∧
         (k ≤ 3 → (s.holders u).length ≤ k → exec (.listHolder aid) s = .next (s.repliedControl 0x35 (.ok 0 0))) ∧
         ∀ i r, k ≤ 3 → (s.holders u)[k]? = some i → s.record i = some r →
           exec (.listHolder aid) s = .next (s.repliedControl 0x35
             (.ok ((s.handle i).word ||| place 24 4 r.agent.val ||| place 31 1 1)
               (place 0 3 r.standing.stateNo ||| place 6 1 r.mode.no ||| place 7 1 (flagNo (s.upgradePending i)) |||
                 place 8 4 (r.standing.depth.getD 0))))) ∧
     ∀ (s : State) (u : UnitId), (s.holders u).Pairwise (· < ·) ∧
       ∀ i, i ∈ s.holders u ↔ ∃ r, s.record i = some r ∧ r.holding = some u) ∧
  ∀ (aid : AgentId) (s : State), Ready aid s →
      (s.isAttached aid = false → Refuses (.probe aid) s aid 0x0C Reason.notAttached aid.val) ∧
      (s.isAttached aid = true →
        (63 < bitField (s.station aid).arg0 0 8 → Refuses (.probe aid) s aid 0x0C Reason.noUnit 0) ∧
        ∀ u : UnitId, bitField (s.station aid).arg0 0 8 = u.val →
          ((∀ i, i ∈ s.rank (s.unit u).config.order (s.unit u).bottom (s.unit u).queue → s.eligible i u = false) →
            exec (.probe aid) s = .next (s.replied aid 0x0C (.ok 0 0))) ∧
          ∀ ahead i behind r, s.rank (s.unit u).config.order (s.unit u).bottom (s.unit u).queue = ahead ++ i :: behind →
            (∀ j, j ∈ ahead → s.eligible j u = false) → s.eligible i u = true → s.record i = some r →
              exec (.probe aid) s = .next (s.replied aid 0x0C
                (.ok ((s.handle i).word ||| place 24 4 r.agent.val ||| place 31 1 1)
                  (place 6 1 r.mode.no ||| place 16 2
                    (if (s.unit u).mark.isSome then 2 else if s.compatible r.mode u then 0 else 1)))))

/-! ### Acquiring -/

/-- ACQUIRE, steps 1 to 5 of Table 3-2: NOT_ATTACHED; BAD_ARGUMENT with location 0; NO_UNIT, with location 0 for a number
above 63 and the unit for an OFFLINE one; UNIT_STATE on a DRAINING unit; BAND. -/
def Obligations.AcquireEarlyTests : Prop :=
  ∀ (aid : AgentId) (s : State), Ready aid s →
    (s.isAttached aid = false → Refuses (.acquire aid) s aid 0x03 Reason.notAttached aid.val) ∧
    (s.isAttached aid = true →
      (1 < bitField (s.station aid).arg0 8 2 ∨ 4095 < bitField (s.station aid).arg1 0 16 ∨
          4095 < bitField (s.station aid).arg2 0 16 → Refuses (.acquire aid) s aid 0x03 Reason.badArgument 0) ∧
      (bitField (s.station aid).arg0 8 2 ≤ 1 → bitField (s.station aid).arg1 0 16 ≤ 4095 →
        bitField (s.station aid).arg2 0 16 ≤ 4095 → 63 < bitField (s.station aid).arg0 0 8 →
          Refuses (.acquire aid) s aid 0x03 Reason.noUnit 0)) ∧
    ∀ u mode d w, Requests s aid u mode d w →
      ((s.unit u).state = .offline → Refuses (.acquire aid) s aid 0x03 Reason.noUnit u.val) ∧
      ((s.unit u).state = .draining → Refuses (.acquire aid) s aid 0x03 Reason.unitState u.val) ∧
      ((s.unit u).state = .opened → s.bandPermits aid u = false → Refuses (.acquire aid) s aid 0x03 Reason.band u.val)

/-- ACQUIRE, steps 6 to 10 of Table 3-2: MODE; an agent that holds the unit in a compatible way is refused RECALLED or
DEPTH or takes a nested hold, which raises the depth by 1 and changes nothing else; ALREADY_WAITING; QUOTA; NO_RECORD.
(That GRANTED carries the whole record status word is notes/assumptions/14.md.) -/
def Obligations.AcquireLaterTests : Prop :=
  ∀ (aid : AgentId) (s : State) u mode d w, Ready aid s → Requests s aid u mode d w → (s.unit u).state = .opened →
    s.bandPermits aid u = true →
      (mode = .shared → (s.unit u).config.capacity = 1 → Refuses (.acquire aid) s aid 0x03 Reason.mode u.val) ∧
      ((mode = .shared → (s.unit u).config.capacity ≠ 1) →
        (∀ i r, SoleHold s aid u i r →
          (mode = .exclusive → r.mode = .shared → Refuses (.acquire aid) s aid 0x03 Reason.mode u.val) ∧
          ((mode = .exclusive → r.mode = .exclusive) →
            (∀ depth g, r.standing = .recalled u depth g → Refuses (.acquire aid) s aid 0x03 Reason.recalled u.val) ∧
            (∀ depth c, r.standing = .held u depth c → 15 ≤ depth →
              Refuses (.acquire aid) s aid 0x03 Reason.depth u.val) ∧
            ∀ depth c p r', r.standing = .held u depth c → depth < 15 →
              r' = { r with standing := .held u (depth + 1) c } → p = (s.taken aid 0x03).writeRecord i (some r') →
                exec (.acquire aid) s =
                  .next (p.answer aid ⟨.granted, recordWord (s.handle i) (.unit u), p.statusWord i r'⟩))) ∧
        ((∀ i, s.owner i = some aid → s.holding i ≠ some u) →
          (s.waitsIn aid (s.unit u).queue = true → Refuses (.acquire aid) s aid 0x03 Reason.alreadyWaiting u.val) ∧
          (s.waitsIn aid (s.unit u).queue = false →
            ((s.agent aid).quota ≤ s.recordCount aid → Refuses (.acquire aid) s aid 0x03 Reason.quota aid.val) ∧
            (s.recordCount aid < (s.agent aid).quota → (∀ i, s.record i ≠ none) →
              Refuses (.acquire aid) s aid 0x03 Reason.noRecord 0))))

/-- ACQUIRE past every test: the lowest FREE slot takes the new record under the next serial, at the tail of the unit's
queue; the unit's pass runs; the answer is GRANTED with the handle and the record's status, QUEUED with the handle, or,
for a one-time try that the pass did not grant, UNAVAILABLE after the record's retirement. (That GRANTED carries the whole
record status word is notes/assumptions/14.md.) -/
def Obligations.AcquireCreates : Prop :=
  ∀ (aid : AgentId) (s p : State) u mode d w i, Ready aid s → Requests s aid u mode d w → (s.unit u).state = .opened →
    s.bandPermits aid u = true → (mode = .shared → (s.unit u).config.capacity ≠ 1) →
    (∀ j, s.owner j = some aid → s.holding j ≠ some u) → s.waitsIn aid (s.unit u).queue = false →
    s.recordCount aid < (s.agent aid).quota → LowestFree s i →
    p = (((s.taken aid 0x03).setSlot i
        { serial := (s.slot i).serial + 1
          record := some
            { agent := aid, mode := mode
              standing := .waiting (.unit u) d (if w = 0 ∨ w = 4095 then none else some w) } }).setUnit u
        { s.unit u with queue := (s.unit u).queue ++ [i] }).unitPass (some i) u →
      ∃ r, p.record i = some r ∧
        (r.isWaiting = false → r.standing = .held u 1 (effectiveDuration d (s.unit u).config.limit) ∧
          exec (.acquire aid) s =
            .next (p.answer aid ⟨.granted, recordWord ⟨i, (s.slot i).serial + 1⟩ (.unit u), p.statusWord i r⟩)) ∧
        (r.isWaiting = true → 0 < w → exec (.acquire aid) s =
          .next (p.answer aid ⟨.queued, recordWord ⟨i, (s.slot i).serial + 1⟩ (.unit u), 0⟩)) ∧
        (r.isWaiting = true → w = 0 → exec (.acquire aid) s =
          .next ((p.retire i).answer aid (.refuse Reason.unavailable u.val)))

/-- ACQUIRE_ANY: the tests of R53 in their order; past them the lowest FREE slot takes a POOL_WAIT record at the tail of
the pool's queue, the pool's pass runs, and the answer is GRANTED with the unit, QUEUED with the pool, or UNAVAILABLE.
(That GRANTED carries the whole record status word is notes/assumptions/14.md.) -/
def Obligations.AcquireAny : Prop :=
  ∀ (aid : AgentId) (s : State), Ready aid s →
    (s.isAttached aid = false → Refuses (.acquireAny aid) s aid 0x04 Reason.notAttached aid.val) ∧
    (s.isAttached aid = true →
      (4095 < bitField (s.station aid).arg1 0 16 ∨ 4095 < bitField (s.station aid).arg2 0 16 →
        Refuses (.acquireAny aid) s aid 0x04 Reason.badArgument 0) ∧
      (bitField (s.station aid).arg1 0 16 ≤ 4095 → bitField (s.station aid).arg2 0 16 ≤ 4095 →
        7 < bitField (s.station aid).arg0 0 8 → Refuses (.acquireAny aid) s aid 0x04 Reason.noPool 0)) ∧
    ∀ p d w, RequestsAny s aid p d w →
      ((∀ u, (s.unit u).config.pool ≠ some p) → Refuses (.acquireAny aid) s aid 0x04 Reason.noPool p.val) ∧
      ((∃ u, (s.unit u).config.pool = some p) →
        (s.waitsIn aid (s.pool p).queue = true → Refuses (.acquireAny aid) s aid 0x04 Reason.alreadyWaiting p.val) ∧
        (s.waitsIn aid (s.pool p).queue = false →
          ((s.agent aid).quota ≤ s.recordCount aid → Refuses (.acquireAny aid) s aid 0x04 Reason.quota aid.val) ∧
          (s.recordCount aid < (s.agent aid).quota → (∀ i, s.record i ≠ none) →
            Refuses (.acquireAny aid) s aid 0x04 Reason.noRecord 0) ∧
          ∀ i q, s.recordCount aid < (s.agent aid).quota → LowestFree s i →
            q = (((s.taken aid 0x04).setSlot i
                { serial := (s.slot i).serial + 1
                  record := some
                    { agent := aid, mode := .exclusive
                      standing := .waiting (.pool p) d (if w = 0 ∨ w = 4095 then none else some w) } }).setPool p
                { s.pool p with queue := (s.pool p).queue ++ [i] }).poolPass (some i) p →
              ∃ r, q.record i = some r ∧
                (r.isWaiting = false →
                  ∃ u, (s.unit u).config.pool = some p ∧
                    r.standing = .held u 1 (effectiveDuration d (s.unit u).config.limit) ∧
                    exec (.acquireAny aid) s = .next (q.answer aid
                      ⟨.granted, recordWord ⟨i, (s.slot i).serial + 1⟩ (.unit u), q.statusWord i r⟩)) ∧
                (r.isWaiting = true → 0 < w → exec (.acquireAny aid) s =
                  .next (q.answer aid ⟨.queued, recordWord ⟨i, (s.slot i).serial + 1⟩ (.pool p), 0⟩)) ∧
                (r.isWaiting = true → w = 0 → exec (.acquireAny aid) s =
                  .next ((q.retire i).answer aid (.refuse Reason.unavailable p.val)))))

/-! ### Commands that name a record -/

/-- The handle check of RELEASE, RENEW, UPGRADE, DOWNGRADE, CANCEL and QUERY_LEASE: NOT_ATTACHED first; then, where ARG0
names no live record of the agent, STALE with reason 0, location 0 and response words 0, and nothing else changes. -/
def Obligations.HandleCheck : Prop :=
  ∀ (aid : AgentId) (s : State), Ready aid s → ∀ (c : Instr) (code : Word),
    (c, code) ∈ [(Instr.release aid, 0x05#32), (.renew aid, 0x06#32), (.upgrade aid, 0x07#32), (.downgrade aid, 0x08#32),
      (.cancel aid, 0x09#32), (.queryLease aid, 0x0A#32)] →
      (s.isAttached aid = false → Refuses c s aid code Reason.notAttached aid.val) ∧
      (s.isAttached aid = true → (∀ i r, ¬ Names s aid i r) → exec c s = .next (s.replied aid code ⟨.stale, 0, 0⟩))

/-- RELEASE on a record that the handle names: BAD_ARGUMENT, NOT_HOLDER on a WAITING one; on a HELD one the depth falls by
1, or to 0 with FULL, and at 0 the record is retired; a RECALLED record is retired whatever its depth; a SPENT one is
answered LAPSED and retired. -/
def Obligations.Release : Prop :=
  ∀ (aid : AgentId) (s : State) i r, Ready aid s → s.isAttached aid = true → Names s aid i r →
    (1 < bitField (s.station aid).arg1 0 2 → Refuses (.release aid) s aid 0x05 Reason.badArgument 0) ∧
    (bitField (s.station aid).arg1 0 2 ≤ 1 →
      (∀ t d c, r.standing = .waiting t d c → Refuses (.release aid) s aid 0x05 Reason.notHolder t.number) ∧
      (∀ u depth c, r.standing = .held u depth c →
        (2 ≤ depth → bitField (s.station aid).arg1 0 2 = 0 →
          exec (.release aid) s = .next
            ((s.replied aid 0x05 (.ok (Target.unit u).word (place 8 4 (depth - 1)))).writeRecord i
              (some { r with standing := .held u (depth - 1) c }))) ∧
        (depth ≤ 1 ∨ bitField (s.station aid).arg1 0 2 = 1 →
          exec (.release aid) s = .next
            (((s.taken aid 0x05).retire i).answer aid (.ok (Target.unit u).word 0)))) ∧
      (∀ u depth g, r.standing = .recalled u depth g →
        exec (.release aid) s = .next
          (((s.taken aid 0x05).retire i).answer aid (.ok (Target.unit u).word 0))) ∧
      ∀ k cause, r.standing = .spent k cause →
        exec (.release aid) s = .next (((s.taken aid 0x05).retire i).answer aid
          ⟨.lapsed, k.target.word, place 12 3 cause.no⟩))

/-- RENEW on a record that the handle names: BAD_ARGUMENT, NOT_HOLDER on a WAITING one; on a HELD one the countdown
becomes the effective duration of Table 3-4, and a tick still in flight for it does nothing; a RECALLED one is refused
RECALLED and its grace runs on; a SPENT one is answered LAPSED and stays SPENT. -/
def Obligations.Renew : Prop :=
  ∀ (aid : AgentId) (s : State) i r d, Ready aid s → s.isAttached aid = true → Names s aid i r →
    bitField (s.station aid).arg1 0 16 = d →
    (4095 < d → Refuses (.renew aid) s aid 0x06 Reason.badArgument 0) ∧
    (d ≤ 4095 →
      (∀ t q c, r.standing = .waiting t q c → Refuses (.renew aid) s aid 0x06 Reason.notHolder t.number) ∧
      (∀ u depth c c', r.standing = .held u depth c →
        ((∃ l, (s.unit u).config.limit = some l ∧ d ≠ 0 ∧ c' = some (min d l)) ∨
          (∃ l, (s.unit u).config.limit = some l ∧ d = 0 ∧ c' = some l) ∨
          ((s.unit u).config.limit = none ∧ d ≠ 0 ∧ c' = some d) ∨
          ((s.unit u).config.limit = none ∧ d = 0 ∧ c' = none)) →
        exec (.renew aid) s = .next
          (((s.replied aid 0x06 (.ok (Target.unit u).word (place 16 12 (c'.getD 0)))).writeRecord i
            (some { r with standing := .held u depth c' })).setTimer
            { s.timer with
              inFlight := s.timer.inFlight.map fun a => if a.slot = i then { a with stale := true } else a })) ∧
      (∀ u depth g, r.standing = .recalled u depth g → Refuses (.renew aid) s aid 0x06 Reason.recalled u.val) ∧
      ∀ k cause, r.standing = .spent k cause →
        exec (.renew aid) s = .next (s.replied aid 0x06
          ⟨.lapsed, k.target.word, place 12 3 cause.no⟩))

/-- UPGRADE on a record that the handle names: NOT_HOLDER, RECALLED, MODE on an EXCLUSIVE one, LAPSED. On a HELD SHARED
record: alone in the holder set it becomes EXCLUSIVE at once; beside other holders it takes the unit's mark and is
QUEUED, with no pass; it is QUEUED again, and nothing changes, where it has the mark; and it is refused CONFLICT where
another record has it. -/
def Obligations.Upgrade : Prop :=
  ∀ (aid : AgentId) (s : State) i r, Ready aid s → s.isAttached aid = true → Names s aid i r →
    (∀ t d c, r.standing = .waiting t d c → Refuses (.upgrade aid) s aid 0x07 Reason.notHolder t.number) ∧
    (∀ u depth g, r.standing = .recalled u depth g → Refuses (.upgrade aid) s aid 0x07 Reason.recalled u.val) ∧
    (∀ k cause, r.standing = .spent k cause →
      exec (.upgrade aid) s = .next (s.replied aid 0x07
        ⟨.lapsed, k.target.word, place 12 3 cause.no⟩)) ∧
    ∀ u depth c, r.standing = .held u depth c →
      (r.mode = .exclusive → Refuses (.upgrade aid) s aid 0x07 Reason.mode u.val) ∧
      (r.mode = .shared →
        (s.holders u = [i] → (s.unit u).mark = none → exec (.upgrade aid) s = .next
          ((s.replied aid 0x07 (.ok (Target.unit u).word (place 6 1 1))).writeRecord i
            (some { r with mode := .exclusive }))) ∧
        (s.holders u ≠ [i] →
          ((s.unit u).mark = none → ∃ t, exec (.upgrade aid) s = .next t ∧
            t = (s.replied aid 0x07 ⟨.queued, recordWord (s.handle i) (.unit u), 0⟩).setUnit u
              { s.unit u with mark := some i } ∧
            (t.unit u).mark = some i ∧ t.upgradePending i = true) ∧
          ((s.unit u).mark = some i → exec (.upgrade aid) s =
            .next (s.replied aid 0x07 ⟨.queued, recordWord (s.handle i) (.unit u), 0⟩)) ∧
          ∀ j, (s.unit u).mark = some j → j ≠ i → Refuses (.upgrade aid) s aid 0x07 Reason.conflict u.val))

/-- DOWNGRADE on a record that the handle names: NOT_HOLDER, RECALLED, LAPSED, MODE on a SHARED record and on a unit of
capacity 1; otherwise the EXCLUSIVE record becomes SHARED in place and the unit's pass runs before the answer. -/
def Obligations.Downgrade : Prop :=
  ∀ (aid : AgentId) (s : State) i r, Ready aid s → s.isAttached aid = true → Names s aid i r →
    (∀ t d c, r.standing = .waiting t d c → Refuses (.downgrade aid) s aid 0x08 Reason.notHolder t.number) ∧
    (∀ u depth g, r.standing = .recalled u depth g → Refuses (.downgrade aid) s aid 0x08 Reason.recalled u.val) ∧
    (∀ k cause, r.standing = .spent k cause →
      exec (.downgrade aid) s = .next (s.replied aid 0x08
        ⟨.lapsed, k.target.word, place 12 3 cause.no⟩)) ∧
    ∀ u depth c, r.standing = .held u depth c →
      (r.mode = .shared → Refuses (.downgrade aid) s aid 0x08 Reason.mode u.val) ∧
      (r.mode = .exclusive →
        ((s.unit u).config.capacity = 1 → Refuses (.downgrade aid) s aid 0x08 Reason.mode u.val) ∧
        (2 ≤ (s.unit u).config.capacity → exec (.downgrade aid) s = .next
          ((((s.taken aid 0x08).writeRecord i (some { r with mode := .shared })).unitPass none u).answer aid
            (.ok (Target.unit u).word 0))))

/-- CANCEL on a record that the handle names: a WAITING record is retired, with the pass on its target; a HELD or RECALLED
one that is not its unit's pending upgrade is answered ALREADY_GRANTED with its state and nothing changes; on the unit's
pending upgrade the mark is cleared, the record stays SHARED and HELD at its depth with its countdown, and the unit's
pass runs; a SPENT one is answered LAPSED and retired. -/
def Obligations.Cancel : Prop :=
  ∀ (aid : AgentId) (s : State) i r, Ready aid s → s.isAttached aid = true → Names s aid i r →
    (∀ t d c, r.standing = .waiting t d c →
      exec (.cancel aid) s = .next (((s.taken aid 0x09).retire i).answer aid (.ok 0 0))) ∧
    (∀ u depth c, r.standing = .held u depth c →
      ((s.unit u).mark ≠ some i → exec (.cancel aid) s =
        .next (s.replied aid 0x09 ⟨.alreadyGranted, (Target.unit u).word, place 0 3 2⟩)) ∧
      ((s.unit u).mark = some i → ∃ t, exec (.cancel aid) s =
          .next (t.answer aid (.ok (Target.unit u).word 0)) ∧
        t = ((s.taken aid 0x09).setUnit u { s.unit u with mark := none }).unitPass none u ∧
        (t.unit u).mark = none ∧ t.record i = some r ∧ t.upgradePending i = false)) ∧
    (∀ u depth g, r.standing = .recalled u depth g → (s.unit u).mark ≠ some i → exec (.cancel aid) s =
      .next (s.replied aid 0x09 ⟨.alreadyGranted, (Target.unit u).word, place 0 3 3⟩)) ∧
    ∀ k cause, r.standing = .spent k cause →
      exec (.cancel aid) s = .next (((s.taken aid 0x09).retire i).answer aid
        ⟨.lapsed, k.target.word, place 12 3 cause.no⟩)

/-- QUERY_LEASE on a record that the handle names answers the items of Table 2-5 (target, state, kind, mode, upgrade
pending, depth, spent cause and countdown), and INSPECT_RECORD on a slot those items with its serial, the agent, the
requested duration and the notice mark; nothing else changes. INSPECT_RECORD refuses a slot above 95, and a FREE slot
answers its serial. -/
def Obligations.QueryAndInspect : Prop :=
  (∀ (aid : AgentId) (s : State) i r, Ready aid s → s.isAttached aid = true → Names s aid i r →
    exec (.queryLease aid) s =
      .next (s.replied aid 0x0A (.ok r.target.word (s.statusWord i r)))) ∧
  ∀ (aid : AgentId) (s : State), Supervises aid s →
    (95 < bitField s.control.arg0 0 8 → RefusesControl (.inspectRecord aid) s 0x34 Reason.badArgument 0) ∧
    ∀ i : SlotId, bitField s.control.arg0 0 8 = i.val →
      (s.record i = none → exec (.inspectRecord aid) s =
        .next (s.repliedControl 0x34 (.ok (place 0 8 (s.slot i).serial.toNat) 0))) ∧
      ∀ r, s.record i = some r →
        (∀ t d c, r.standing = .waiting t d c → exec (.inspectRecord aid) s = .next (s.repliedControl 0x34
          (.ok (place 0 8 (s.slot i).serial.toNat ||| place 8 4 r.agent.val ||| place 12 12 d |||
            place 24 6 t.number ||| place 31 1 (flagNo (s.hasEntry r.agent i))) (s.statusWord i r)))) ∧
        (r.isWaiting = false → exec (.inspectRecord aid) s = .next (s.repliedControl 0x34
          (.ok (place 0 8 (s.slot i).serial.toNat ||| place 8 4 r.agent.val |||
            place 24 6 r.target.number ||| place 31 1 (flagNo (s.hasEntry r.agent i))) (s.statusWord i r))))

/-! ### Notices -/

/-- NEXT_NOTICE: NOT_ATTACHED; NONE on an empty queue; otherwise the oldest entry leaves the queue and is answered with
the number left, and where its record is SPENT that record is retired in the same event. SET_ATTENTION: NOT_ATTACHED,
BAD_ARGUMENT; otherwise the enable is written and answered with the number of entries. ATN_N is asserted exactly while
the queue holds an entry and the enable is on. -/
def Obligations.NoticeCommands : Prop :=
  (∀ (aid : AgentId) (s : State), Ready aid s →
       (s.isAttached aid = false → Refuses (.nextNotice aid) s aid 0x0D Reason.notAttached aid.val) ∧
       (s.isAttached aid = true →
         ((s.notice aid).entries = [] → exec (.nextNotice aid) s = .next (s.replied aid 0x0D (.ok 0 0))) ∧
         ∀ n rest r p, (s.notice aid).entries = n :: rest → s.record n.handle.slot = some r →
           s.handle n.handle.slot = n.handle →
           p = (s.taken aid 0x0D).setNotice aid { s.notice aid with entries := rest } →
             (r.isSpent = false → exec (.nextNotice aid) s =
               .next (p.answer aid (.ok (noticeWord n rest.length) 0))) ∧
             (r.isSpent = true → exec (.nextNotice aid) s =
               .next ((p.retire n.handle.slot).answer aid (.ok (noticeWord n rest.length) 0))))) ∧
  (∀ (aid : AgentId) (s : State), Ready aid s →
      (s.isAttached aid = false → Refuses (.setAttention aid) s aid 0x0E Reason.notAttached aid.val) ∧
      (s.isAttached aid = true →
        (1 < bitField (s.station aid).arg0 0 2 → Refuses (.setAttention aid) s aid 0x0E Reason.badArgument 0) ∧
        ∀ on : Bool, bitField (s.station aid).arg0 0 2 = flagNo on → exec (.setAttention aid) s = .next
          ((s.replied aid 0x0E (.ok (place 0 1 (flagNo on) ||| place 8 4 (s.notice aid).entries.length) 0)).setNotice aid
            { s.notice aid with attention := on }))) ∧
    ∀ (s : State) (a : AgentId), s.atn a = true ↔ (s.notice a).entries ≠ [] ∧ (s.notice a).attention = true

/-- A grant: the waiter leaves its queue and becomes a LEASE HELD at depth 1 on the unit, with the effective duration of
Table 3-4, and GRANTED is posted unless the calling command created the record; nothing else changes, but that a tick in
flight for its wait limit does nothing more. A notice posted for the record in a slot goes to the record's agent if that
agent is ATTACHED: an unread entry for the record takes the new kind in its place, and otherwise an entry with the kind,
the handle and the record's target joins the tail. Nothing else changes, and nothing at all where the agent is not
ATTACHED. -/
def Obligations.GrantAndPost : Prop :=
  ((∀ (s : State) (own : Option SlotId) (u : UnitId) (i : SlotId) (r : Record) d c,
       s.record i = some r →
       (∀ v, r.standing = .waiting (.unit v) d c → ∀ g,
         g = (((s.setUnit v { s.unit v with queue := (s.unit v).queue.filter (· ≠ i) }).writeRecord i
           (some { r with standing := .held u 1 (effectiveDuration d (s.unit u).config.limit) })).setTimer
           { s.timer with inFlight := s.timer.inFlight.map fun a => if a.slot = i then { a with stale := true } else a }) →
         (own = some i → s.grant own u i = g) ∧ (own ≠ some i → s.grant own u i = g.post .granted i)) ∧
       ∀ p, r.standing = .waiting (.pool p) d c → ∀ g,
         g = (((s.setPool p { s.pool p with queue := (s.pool p).queue.filter (· ≠ i) }).writeRecord i
           (some { r with standing := .held u 1 (effectiveDuration d (s.unit u).config.limit) })).setTimer
           { s.timer with inFlight := s.timer.inFlight.map fun a => if a.slot = i then { a with stale := true } else a }) →
         (own = some i → s.grant own u i = g) ∧ (own ≠ some i → s.grant own u i = g.post .granted i)) ∧
     (∀ d l, d ≠ 0 → effectiveDuration d (some l) = some (min d l)) ∧ (∀ l, effectiveDuration 0 (some l) = some l) ∧
     (∀ d, d ≠ 0 → effectiveDuration d none = some d) ∧ effectiveDuration 0 none = none) ∧
  ∀ (s : State) (kind : NoticeKind) (i : SlotId) (r : Record), s.record i = some r →
      (s.isAttached r.agent = false → s.post kind i = s) ∧
      (s.isAttached r.agent = true →
        (s.hasEntry r.agent i = false → s.post kind i = s.setNotice r.agent
          { s.notice r.agent with
            entries := (s.notice r.agent).entries ++ [{ kind := kind, handle := s.handle i, target := r.target }] }) ∧
        ∀ ahead n behind, (s.notice r.agent).entries = ahead ++ n :: behind → n.handle = s.handle i →
          (∀ m, m ∈ ahead ++ behind → m.handle ≠ s.handle i) →
            s.post kind i = s.setNotice r.agent
              { s.notice r.agent with entries := ahead ++ { n with kind := kind } :: behind })

/-! ### Supervisory control -/

/-- SET_BAND: FROZEN, BAD_ARGUMENT; the ceiling in force again changes nothing; raising it is always taken, with unit
passes on the units that leave the band and pool passes on their pools; lowering it is refused BAND_OCCUPIED with the
lowest unit that an agent without clearance occupies, and otherwise changes the ceiling alone. -/
def Obligations.SetBand : Prop :=
  ∀ (aid : AgentId) (s : State) (c : Nat), Supervises aid s → bitField s.control.arg0 0 8 = c →
    (s.frozen = true → RefusesControl (.setBand aid) s 0x23 Reason.frozen 0) ∧
    (s.frozen = false →
      (64 < c → RefusesControl (.setBand aid) s 0x23 Reason.badArgument 0) ∧
      (c ≤ 64 →
        (c = s.ceiling → exec (.setBand aid) s = .next (s.repliedControl 0x23 (.ok (place 0 7 c) 0))) ∧
        (s.ceiling < c → exec (.setBand aid) s = .next
          (((({ s.takenControl 0x23 with ceiling := c } : State).unitPasses
              (allUnits.filter fun u => decide (s.ceiling ≤ u.val ∧ u.val < c))).poolPasses
              (allPools.filter fun p => allUnits.any fun u =>
                decide (s.ceiling ≤ u.val ∧ u.val < c ∧ (s.unit u).config.pool = some p))).answerControl
            (.ok (place 0 7 c) 0))) ∧
        (c < s.ceiling → QueueLaw s →
          (∀ u a, c ≤ u.val → u.val < s.ceiling → s.clearance a = false → Occupies s a u →
            (∀ v b, c ≤ v.val → v < u → s.clearance b = false → ¬ Occupies s b v) →
              RefusesControl (.setBand aid) s 0x23 Reason.bandOccupied u.val) ∧
          ((∀ u a, c ≤ u.val → u.val < s.ceiling → s.clearance a = false → ¬ Occupies s a u) →
            exec (.setBand aid) s =
              .next { s.repliedControl 0x23 (.ok (place 0 7 c) 0) with ceiling := c }))))

/-- SET_CLEARANCE: FROZEN, BAD_ARGUMENT, BAD_ARGUMENT with the agent for a value that is neither and for taking it from
the supervisor agent; the value in force again changes nothing; giving clearance is always taken, with pool passes on the
pools the agent waits for; removing it is refused BAND_OCCUPIED with the lowest unit in the band that the agent
occupies, and otherwise changes the clearance alone. -/
def Obligations.SetClearance : Prop :=
  ∀ (aid : AgentId) (s : State), Supervises aid s →
    (s.frozen = true → RefusesControl (.setClearance aid) s 0x24 Reason.frozen 0) ∧
    (s.frozen = false →
      (15 < bitField s.control.arg0 0 8 → RefusesControl (.setClearance aid) s 0x24 Reason.badArgument 0) ∧
      ∀ a : AgentId, bitField s.control.arg0 0 8 = a.val →
        (1 < bitField s.control.arg1 0 2 → RefusesControl (.setClearance aid) s 0x24 Reason.badArgument a.val) ∧
        (bitField s.control.arg1 0 2 = 0 → a = s.supervisor →
          RefusesControl (.setClearance aid) s 0x24 Reason.badArgument a.val) ∧
        (bitField s.control.arg1 0 2 = 1 →
          (s.clearance a = true → exec (.setClearance aid) s =
            .next (s.repliedControl 0x24 (.ok (place 0 4 a.val ||| place 8 1 1) 0))) ∧
          (s.clearance a = false → exec (.setClearance aid) s = .next
            ((((s.takenControl 0x24).setAgent a { s.agent a with clearance := true }).poolPasses
              (allPools.filter fun p => s.waitsIn a (s.pool p).queue)).answerControl
              (.ok (place 0 4 a.val ||| place 8 1 1) 0)))) ∧
        (bitField s.control.arg1 0 2 = 0 → a ≠ s.supervisor →
          (s.clearance a = false → exec (.setClearance aid) s =
            .next (s.repliedControl 0x24 (.ok (place 0 4 a.val) 0))) ∧
          (s.clearance a = true → QueueLaw s →
            (∀ u : UnitId, s.ceiling ≤ u.val → Occupies s a u →
              (∀ v : UnitId, s.ceiling ≤ v.val → v < u → ¬ Occupies s a v) →
                RefusesControl (.setClearance aid) s 0x24 Reason.bandOccupied u.val) ∧
            ((∀ u : UnitId, s.ceiling ≤ u.val → ¬ Occupies s a u) → exec (.setClearance aid) s = .next
              ((s.repliedControl 0x24 (.ok (place 0 4 a.val) 0)).setAgent a { s.agent a with clearance := false })))))

/-- The recall of a HELD record: with a grace of 1 or more it becomes RECALLED with that grace, keeps its depth and
mode, and RECALLED is posted; the unit's mark is cleared if it names the record, and only then does the unit's pass
follow. With a grace of 0 it is spent as REVOKED. Any other record is left as it is. RECALL_LEASE: BAD_ARGUMENT above
95, NOT_HOLDER on a FREE slot and on a WAITING or SPENT record; a RECALLED record is answered and nothing changes; a
HELD one is recalled, and its handle, agent, unit and the state it is left in are answered. RECALL_UNIT recalls the
unit's HELD records in ascending slot number, each whole before the next, and answers how many are RECALLED and how many
were ended. -/
def Obligations.Recall : Prop :=
  (∀ (s : State) (i : SlotId) (r : Record), s.record i = some r →
       (∀ u depth c, r.standing = .held u depth c →
         ((s.unit u).config.grace = 0 → s.recall i = s.spend i .revoked) ∧
         (0 < (s.unit u).config.grace →
           ((s.unit u).mark ≠ some i → s.recall i =
             (s.loadRecord i (some { r with standing := .recalled u depth (s.unit u).config.grace })).post .recalled i) ∧
           ((s.unit u).mark = some i → s.recall i =
             (((s.setUnit u { s.unit u with mark := none }).loadRecord i
               (some { r with standing := .recalled u depth (s.unit u).config.grace })).post .recalled i).unitPass
               none u))) ∧
       ((∀ u depth c, r.standing ≠ .held u depth c) → s.recall i = s)) ∧
  ∀ (aid : AgentId) (s : State), Supervises aid s →
      (95 < bitField s.control.arg0 0 8 → RefusesControl (.recallLease aid) s 0x2A Reason.badArgument 0) ∧
      (∀ i : SlotId, bitField s.control.arg0 0 8 = i.val →
        (s.record i = none → RefusesControl (.recallLease aid) s 0x2A Reason.notHolder 0) ∧
        ∀ r, s.record i = some r →
          (r.isWaiting = true ∨ r.isSpent = true →
            RefusesControl (.recallLease aid) s 0x2A Reason.notHolder r.target.number) ∧
          (∀ u depth g, r.standing = .recalled u depth g → exec (.recallLease aid) s =
            .next (s.repliedControl 0x2A (.ok (recordWordWithAgent (s.handle i) (.unit u) r.agent) (place 0 3 3)))) ∧
          ∀ u depth c p, r.standing = .held u depth c → p = (s.takenControl 0x2A).recall i →
            exec (.recallLease aid) s = .next (p.answerControl
              (.ok (recordWordWithAgent (s.handle i) (.unit u) r.agent)
                (place 0 3 (match p.record i with | none => 0 | some q => q.standing.stateNo))))) ∧
      (63 < bitField s.control.arg0 0 8 → RefusesControl (.recallUnit aid) s 0x2B Reason.noUnit 0) ∧
      ∀ (u : UnitId) (list : List SlotId) (p : State), bitField s.control.arg0 0 8 = u.val →
        list = allSlots.filter (fun i => (s.record i).any fun r => r.isHeldOn u) →
        p = list.foldl (fun s i => s.recall i) (s.takenControl 0x2B) →
          exec (.recallUnit aid) s = .next (p.answerControl
            (.ok (place 0 3 (list.countP fun i => p.slotStateNo i == 3) |||
              place 8 3 (list.length - list.countP fun i => p.slotStateNo i == 3)) 0))

/-- DRAIN_UNIT: NO_UNIT, UNIT_STATE unless the unit is OPEN; otherwise the unit becomes DRAINING and loses its mark, its
waiters are withdrawn from the head, its HELD holders are recalled in ascending slot number, and the drain completes at
once if no holder is left; the answer counts them and gives the unit's state. DRAIN_COMPLETION: a DRAINING unit without
a holder becomes OFFLINE and enters the drained set once. Any other unit has no drain to complete; that the row then does
nothing is the model's choice (notes/assumptions/5.md, with notes/assumptions/10.md). -/
def Obligations.Drain : Prop :=
  (∀ (aid : AgentId) (s : State), Supervises aid s →
       (63 < bitField s.control.arg0 0 8 → RefusesControl (.drainUnit aid) s 0x28 Reason.noUnit 0) ∧
       ∀ u : UnitId, bitField s.control.arg0 0 8 = u.val →
         ((s.unit u).state ≠ .opened → RefusesControl (.drainUnit aid) s 0x28 Reason.unitState u.val) ∧
         ((s.unit u).state = .opened →
           (∀ a b t list, QueueLaw s →
             a = (s.takenControl 0x28).setUnit u { s.unit u with state := .draining, mark := none } →
             b = (s.unit u).queue.foldl (fun s i => s.spend i .withdrawn) a →
             list = allSlots.filter (fun i => (b.record i).any fun r => r.isHeldOn u) →
             t = (list.foldl (fun s i => s.recall i) b).completeDrain u →
               exec (.drainUnit aid) s = .next (t.answerControl
                 (.ok (place 0 5 (s.unit u).queue.length ||| place 8 3 (list.countP fun i => t.slotStateNo i == 3) |||
                   place 16 3 (list.length - list.countP fun i => t.slotStateNo i == 3) |||
                   place 24 2 (t.unit u).state.no) 0)) ∧
               (t.unit u).queue = [] ∧ (t.unit u).mark = none ∧
               ∀ i r, t.record i = some r → r.isHeldOn u = false))) ∧
  ∀ (u : UnitId) (s : State), s.inReset = false →
      ((s.unit u).state = .draining → s.holders u = [] →
        exec (.drainCompletion u) s =
          .next ((s.quiet.setUnit u { s.unit u with state := .offline }).addDrained u)) ∧
      ((s.unit u).state ≠ .draining ∨ s.holders u ≠ [] → exec (.drainCompletion u) s = .next s.quiet)

/-- READ_COMPLETIONS: BAD_ARGUMENT above 1; otherwise bit k of RESP0 stands for unit k of the half read, bit k of RESP1
for agent k and bit 31 of RESP1 for the other half, and exactly the entries returned are removed. SET_CONTROL_ATTENTION:
BAD_ARGUMENT; otherwise the enable is written and answered with the numbers of entries of the two sets, which it does
not change. CATN_N is asserted exactly while either set holds an entry and the enable is on. -/
def Obligations.CompletionSets : Prop :=
  (∀ (aid : AgentId) (s : State), Supervises aid s →
       (1 < bitField s.control.arg0 0 8 → RefusesControl (.readCompletions aid) s 0x32 Reason.badArgument 0) ∧
       ∀ half : Nat, half ≤ 1 → bitField s.control.arg0 0 8 = half →
         ∃ (w0 w1 : Word) (drained : Vector Bool 64) (detached : Vector Bool 16),
           exec (.readCompletions aid) s =
             .next { s.repliedControl 0x32 (.ok w0 w1) with drained := drained, detached := detached } ∧
           (∀ u : UnitId, u.val / 32 = half →
             w0.getLsbD (u.val % 32) = s.drained.get u ∧ drained.get u = false) ∧
           (∀ u : UnitId, u.val / 32 ≠ half → drained.get u = s.drained.get u) ∧
           (∀ a : AgentId, w1.getLsbD a.val = s.detached.get a ∧ detached.get a = false) ∧
           (w1.getLsbD 31 = true ↔ ∃ u : UnitId, u.val / 32 ≠ half ∧ s.drained.get u = true) ∧
           ∀ k, 16 ≤ k → k ≤ 30 → w1.getLsbD k = false) ∧
  (∀ (aid : AgentId) (s : State), Supervises aid s →
      (1 < bitField s.control.arg0 0 2 → RefusesControl (.setControlAttention aid) s 0x33 Reason.badArgument 0) ∧
      ∀ on : Bool, bitField s.control.arg0 0 2 = flagNo on →
        exec (.setControlAttention aid) s = .next
          { s.repliedControl 0x33 (.ok (place 0 1 (flagNo on) |||
              place 8 7 (allUnits.countP fun u => s.drained.get u) |||
              place 16 5 (allAgents.countP fun a => s.detached.get a)) 0) with controlAttention := on }) ∧
    ∀ s : State, s.catn = true ↔ ((∃ u : UnitId, s.drained.get u = true) ∨ ∃ a : AgentId, s.detached.get a = true) ∧
      s.controlAttention = true

/-- FREEZE sets the frozen flag and answers the value it had. Once it is set it stays set until POWER_ON, and until then
no command, no event and no hardware reset changes the configuration state; each command that writes configuration is
refused FROZEN. -/
def Obligations.Freeze : Prop :=
  (∀ (aid : AgentId) (s : State), Supervises aid s →
    exec (.freeze aid) s = .next { s.repliedControl 0x30 (.ok (place 0 1 (flagNo s.frozen)) 0) with frozen := true }) ∧
  (∀ (aid : AgentId) (s : State), Supervises aid s → s.frozen = true → ∀ (c : Instr) (code : Word),
    (c, code) ∈ [(Instr.configureUnit aid, 0x21#32), (.configurePool aid, 0x22#32), (.setBand aid, 0x23#32),
      (.setClearance aid, 0x24#32), (.setQuota aid, 0x25#32), (.setTick aid, 0x26#32)] →
        RefusesControl c s code Reason.frozen 0) ∧
  ∀ (c : Instr) (s t : State), (∀ x, c ≠ .powerOn x) → s.frozen = true → exec c s = .next t →
    t.frozen = true ∧ t.configuration = s.configuration

/-! ### Lease time -/

/-- SET_TICK: FROZEN, BAD_ARGUMENT; otherwise source and divider are written together, the divider count becomes 0 and
the TKIN reference none, ticks in flight stay in flight, and source and divider are answered. A rising edge of CLK:
under OFF nothing; under INTERNAL the count rises by 1, and at the divider a tick is taken and it returns to 0; under
PIN TKIN is sampled, and a tick is taken where it reads high after a low sample. A tick taken adds one arrival for each
record with a present countdown. The row TICK is the edge at which a tick is due (notes/assumptions/8.md). -/
def Obligations.TickSetupAndTicks : Prop :=
  (∀ (aid : AgentId) (s : State), Supervises aid s →
       (s.frozen = true → RefusesControl (.setTick aid) s 0x26 Reason.frozen 0) ∧
       (s.frozen = false →
         (2 < bitField s.control.arg0 0 2 ∨ s.control.arg1.toNat < 16 ∨ 65536 < s.control.arg1.toNat →
           RefusesControl (.setTick aid) s 0x26 Reason.badArgument 0) ∧
         ∀ source : TickSource, bitField s.control.arg0 0 2 = source.no → 16 ≤ s.control.arg1.toNat →
           s.control.arg1.toNat ≤ 65536 →
             exec (.setTick aid) s = .next ((s.repliedControl 0x26 (.ok (place 0 2 source.no) s.control.arg1)).setTimer
               { s.timer with source := source, divider := s.control.arg1.toNat, count := 0, reference := none }))) ∧
  ∀ (s : State), s.inReset = false → ∀ reached : List Arrival,
      reached = (allSlots.filter fun i => (s.record i).any fun r => r.standing.countdown.isSome).map (fun i => ⟨i, false⟩) →
      (s.timer.source = .off → (∀ b, exec (.clkRisingEdge b) s = .next s.quiet) ∧ exec .tick s = .next s.quiet) ∧
      (s.timer.source = .internal →
        (s.timer.count + 1 < s.timer.divider →
          (∀ b, exec (.clkRisingEdge b) s = .next (s.quiet.setTimer { s.timer with count := s.timer.count + 1 })) ∧
          exec .tick s = .next s.quiet) ∧
        (s.timer.divider ≤ s.timer.count + 1 → ∀ c, (c = .tick ∨ ∃ b, c = .clkRisingEdge b) →
          exec c s = .next (s.quiet.setTimer
            { s.timer with count := 0, inFlight := s.timer.inFlight ++ reached }))) ∧
      (s.timer.source = .pin →
        (s.timer.reference = some false → ∀ c, (c = .tick ∨ c = .clkRisingEdge true) →
          exec c s = .next (s.quiet.setTimer
            { s.timer with reference := some true, inFlight := s.timer.inFlight ++ reached })) ∧
        (s.timer.reference ≠ some false →
          exec (.clkRisingEdge true) s = .next (s.quiet.setTimer { s.timer with reference := some true }) ∧
          exec .tick s = .next s.quiet) ∧
        exec (.clkRisingEdge false) s = .next (s.quiet.setTimer { s.timer with reference := some false }))

/-- The arrival of a tick at the record in a slot: the oldest arrival in flight for the slot is made; where the record's
countdown has been removed or replaced since its tick it does nothing else; otherwise the countdown falls by 1, and from
1 the record expires in the same event, a lease as EXPIRED, a wait as TIMED_OUT, a grace as REVOKED. The three expiry
rows are that arrival (notes/assumptions/9.md). Where none is due, because no arrival is in flight, or it is stale, or
the record is in another state or has no countdown or one of 2 or more, an expiry row does nothing
(notes/assumptions/5.md). -/
def Obligations.TickArrivals : Prop :=
  ∀ (s : State) (i : SlotId), s.inReset = false →
    ((∀ a, a ∈ s.timer.inFlight → a.slot ≠ i) → ∀ c, c ∈ [Instr.tickArrival i, .leaseExpiry i, .waitTimeout i,
      .graceExpiry i] → exec c s = .next s.quiet) ∧
    ((∀ r u d n, s.record i = some r → r.standing = .held u d (some n) → 2 ≤ n) →
      exec (.leaseExpiry i) s = .next s.quiet) ∧
    ((∀ r t d n, s.record i = some r → r.standing = .waiting t d (some n) → 2 ≤ n) →
      exec (.waitTimeout i) s = .next s.quiet) ∧
    ((∀ r u d n, s.record i = some r → r.standing = .recalled u d n → 2 ≤ n) →
      exec (.graceExpiry i) s = .next s.quiet) ∧
    ∀ before a rest p, s.timer.inFlight = before ++ a :: rest → a.slot = i → (∀ b, b ∈ before → b.slot ≠ i) →
      p = s.quiet.setTimer { s.timer with inFlight := before ++ rest } →
      (a.stale = true → exec (.tickArrival i) s = .next p ∧
        ∀ c, c ∈ [Instr.leaseExpiry i, .waitTimeout i, .graceExpiry i] → exec c s = .next s.quiet) ∧
      (a.stale = false → ∀ r, s.record i = some r →
        (∀ t d n, r.standing = .waiting t d (some n) →
          (2 ≤ n → exec (.tickArrival i) s =
            .next (p.writeRecord i (some { r with standing := .waiting t d (some (n - 1)) }))) ∧
          (n ≤ 1 → exec (.tickArrival i) s = .next (p.spend i .timedOut) ∧
            exec (.waitTimeout i) s = .next (p.spend i .timedOut))) ∧
        (∀ u d n, r.standing = .held u d (some n) →
          (2 ≤ n → exec (.tickArrival i) s =
            .next (p.writeRecord i (some { r with standing := .held u d (some (n - 1)) }))) ∧
          (n ≤ 1 → exec (.tickArrival i) s = .next (p.spend i .expired) ∧
            exec (.leaseExpiry i) s = .next (p.spend i .expired))) ∧
        ∀ u d n, r.standing = .recalled u d n →
          (2 ≤ n → exec (.tickArrival i) s =
            .next (p.writeRecord i (some { r with standing := .recalled u d (n - 1) }))) ∧
          (n ≤ 1 → exec (.tickArrival i) s = .next (p.spend i .revoked) ∧
            exec (.graceExpiry i) s = .next (p.spend i .revoked)))

/-! ### Records and passes -/

/-- The retirement of a record: it leaves its queue or gives up its unit's mark, its unread entry is withdrawn, and its
slot becomes FREE with its serial kept; where it was the last record of a DETACHING agent, that agent's walk ends; then
the pass that the departure calls runs on its target, and the drain of a DRAINING unit that it leaves without a holder
completes. Its agent has one record less and every other agent as many as before; of every other record at most the
mode, or a wait that is granted, changes; the configuration, the control station and the other agents are as before. -/
def Obligations.Retirement : Prop :=
  ∀ (s t : State) (i : SlotId) (r : Record), s.record i = some r → t = s.retire i →
    (∃ p, LeavesPlace s p i r none ∧
      (∀ b, p.notice b = if b = r.agent then
          { s.notice b with entries := (s.notice b).entries.filter fun n => n.handle != s.handle i } else s.notice b) ∧
      ((s.agent r.agent).state = .detaching → s.recordCount r.agent = 1 →
        p.agent r.agent = { s.agent r.agent with state := .detached, held := false } ∧
        p.station r.agent = { s.station r.agent with resp0 := 0, resp1 := 0, stat := 0 } ∧
        ∀ a : AgentId, p.detached.get a = (s.detached.get a || decide (a = r.agent))) ∧
      ((s.agent r.agent).state ≠ .detaching ∨ 1 < s.recordCount r.agent →
        p.agent r.agent = s.agent r.agent ∧ p.station r.agent = s.station r.agent ∧ p.detached = s.detached) ∧
      (∀ b, b ≠ r.agent → p.agent b = s.agent b ∧ p.station b = s.station b) ∧ Departs r p t ∧
      t.agents = p.agents ∧ t.stations = p.stations ∧ t.detached = p.detached) ∧
    FreesUnits s t i r ∧ OthersStand s t i ∧
    t.record i = none ∧ (∀ j, (t.slot j).serial = (s.slot j).serial) ∧ t.hasEntry r.agent i = false ∧
    t.recordCount r.agent + 1 = s.recordCount r.agent ∧
    (∀ b, b ≠ r.agent → t.recordCount b = s.recordCount b ∧ t.agent b = s.agent b ∧ t.station b = s.station b) ∧
    (∀ d c u, r.standing = .waiting (.unit u) d c → i ∉ (t.unit u).queue) ∧
    (∀ d c p, r.standing = .waiting (.pool p) d c → i ∉ (t.pool p).queue) ∧
    t.configuration = s.configuration ∧ t.control = s.control ∧ t.frozen = s.frozen ∧
    t.controlAttention = s.controlAttention ∧ t.supervisor = s.supervisor ∧ t.inReset = s.inReset ∧ t.port = s.port ∧
    t.pending = s.pending ∧ t.timer.count = s.timer.count ∧ t.timer.reference = s.timer.reference ∧
    (r.isSpent = true → t.units = s.units ∧ t.pools = s.pools ∧ ∀ j, j ≠ i → t.record j = s.record j)

/-- A record is spent with a cause. Where its agent is ATTACHED it leaves its queue or gives up its unit's mark, becomes
SPENT, keeps its agent, mode, kind and target and drops the rest; the notice of its cause is posted; then the pass that
the departure calls runs on its target, and the drain of a DRAINING unit that it leaves without a holder completes. The
notice stands as the record's one entry's kind; of every other record at most the mode, or a wait that is granted,
changes; agents, stations, the completion of walks and the configuration are as before. Where its agent is not ATTACHED
it is retired instead. -/
def Obligations.Spending : Prop :=
  ∀ (s t : State) (i : SlotId) (r : Record) (cause : SpentCause), s.record i = some r → r.isSpent = false →
    t = s.spend i cause →
    (s.isAttached r.agent = false → t = s.retire i) ∧
    (s.isAttached r.agent = true →
      (∃ p, LeavesPlace s p i r (some { r with standing := .spent r.standing.claim cause }) ∧
        p.notices = s.notices ∧ p.agents = s.agents ∧ p.stations = s.stations ∧ p.detached = s.detached ∧
        Departs r (p.post cause.notice i) t) ∧
      FreesUnits s t i r ∧ OthersStand s t i ∧
      t.record i = some { r with standing := .spent r.standing.claim cause } ∧
      (∀ j, (t.slot j).serial = (s.slot j).serial) ∧
      (∃ n, n ∈ (t.notice r.agent).entries ∧ n.handle = s.handle i ∧ n.kind = cause.notice) ∧
      (∀ n, n ∈ (t.notice r.agent).entries → n.handle = s.handle i → n.kind = cause.notice) ∧
      (∀ d c u, r.standing = .waiting (.unit u) d c → i ∉ (t.unit u).queue) ∧
      (∀ d c p, r.standing = .waiting (.pool p) d c → i ∉ (t.pool p).queue) ∧
      (∀ a, t.recordCount a = s.recordCount a) ∧ t.agents = s.agents ∧ t.stations = s.stations ∧
      t.detached = s.detached ∧ t.configuration = s.configuration ∧ t.control = s.control ∧ t.frozen = s.frozen ∧
      t.controlAttention = s.controlAttention ∧ t.supervisor = s.supervisor ∧ t.inReset = s.inReset ∧ t.port = s.port ∧
      t.pending = s.pending ∧ t.timer.count = s.timer.count ∧ t.timer.reference = s.timer.reference)

/-- Eligibility and compatibility: a waiter is eligible on a unit when its agent is ATTACHED and not held and the band
permits it there, and compatible when the holder set is empty, or when it asks SHARED, every holder is SHARED and there
are fewer than the shared capacity. The supervisor agent's clearance reads yes in every state. The rank of a queue: in
ARRIVAL mode its own order; in RING mode the same records in the order of their agents around the ring that starts just
after the bottom agent. -/
def Obligations.EligibilityAndRank : Prop :=
  ((∀ (s : State) (i : SlotId) (u : UnitId), s.eligible i u = true ↔ ∃ r, s.record i = some r ∧ r.isWaiting = true ∧
       (s.agent r.agent).state = .attached ∧ (s.agent r.agent).held = false ∧
       (u.val < s.ceiling ∨ s.clearance r.agent = true)) ∧
     (∀ (s : State) (mode : Mode) (u : UnitId), s.compatible mode u = true ↔ s.holders u = [] ∨
       (mode = .shared ∧ (∀ i r, s.record i = some r → r.holding = some u → r.mode = .shared) ∧
         (s.holders u).length < (s.unit u).config.capacity)) ∧
     ∀ (s : State) (a : AgentId), s.clearance a = true ↔ a = s.supervisor ∨ (s.agent a).clearance = true) ∧
  (∀ (s : State) (b : AgentId) (queue : List SlotId), s.rank .arrival b queue = queue) ∧
    ∀ (s : State) (b : AgentId) (t : Target) (queue : List SlotId), QueueOf s t queue →
      (s.rank .ring b queue).Perm queue ∧
      (s.rank .ring b queue).Pairwise fun i j => ∀ x y, s.owner i = some x → s.owner j = some y →
        (x.val + 15 - b.val) % 16 < (y.val + 15 - b.val) % 16

/-- A unit grant pass does nothing on a unit that is OFFLINE or DRAINING, and a pool grant pass does not visit one. On an
OPEN unit a pending upgrade is looked at first: where its record is the only holder it becomes EXCLUSIVE, the mark is
cleared and UPGRADED is posted, and the pass ends; where others hold, the pass ends with no change. Without a mark stage
B runs, and stage C where no holder stands after it. -/
def Obligations.PassStageA : Prop :=
  ∀ (s : State) (own : Option SlotId) (u : UnitId),
    ((s.unit u).state ≠ .opened → s.unitPass own u = s ∧ ∀ p, s.offer own p u = s) ∧
    ((s.unit u).state = .opened →
      (∀ i, (s.unit u).mark = some i →
        (s.holders u ≠ [i] → s.unitPass own u = s) ∧
        (s.holders u = [i] → ∀ r, s.record i = some r →
          s.unitPass own u = ((s.setUnit u { s.unit u with mark := none }).writeRecord i
            (some { r with mode := .exclusive })).post .upgraded i)) ∧
      ((s.unit u).mark = none →
        ((s.stageB own u).holders u ≠ [] → s.unitPass own u = s.stageB own u) ∧
        ((s.stageB own u).holders u = [] → s.unitPass own u = (s.stageB own u).stageC own u)))

/-- Stage B: the waiters before the first eligible one are passed over; where that one is compatible it is granted and the
stage goes on with those after it; where it is not, the stage stops there and nobody is granted; with no eligible waiter
nothing changes. At the end the bottom agent follows the last waiter granted, under RING with the rotate flag set, and
only then. -/
def Obligations.PassStageB : Prop :=
  (∀ (own : Option SlotId) (u : UnitId) (ahead : List SlotId) (s : State) (last : Option AgentId),
    (∀ j, j ∈ ahead → s.eligible j u = false) →
      stageBWalk own u ahead s last = (s, last) ∧
      ∀ i behind r, s.eligible i u = true → s.record i = some r →
        (s.compatible r.mode u = false → stageBWalk own u (ahead ++ i :: behind) s last = (s, last)) ∧
        (s.compatible r.mode u = true →
          stageBWalk own u (ahead ++ i :: behind) s last = stageBWalk own u behind (s.grant own u i) (some r.agent))) ∧
  ∀ (own : Option SlotId) (u : UnitId) (s w : State) (last : Option AgentId),
    stageBWalk own u (s.rank (s.unit u).config.order (s.unit u).bottom (s.unit u).queue) s none = (w, last) →
      (∀ a, last = some a → (s.unit u).config.order = .ring → (s.unit u).config.rotate = true →
        s.stageB own u = w.setUnit u { w.unit u with bottom := a }) ∧
      (last = none ∨ (s.unit u).config.order = .arrival ∨ (s.unit u).config.rotate = false → s.stageB own u = w)

/-- No waiter overtakes: in a unit pass, a waiter of the unit's queue that is eligible when the pass begins and ranks ahead
of one that the pass grants is granted too; and a waiter, of the unit's queue or of its pool's, that the pass grants was
eligible for the unit. -/
def Obligations.NoOvertaking : Prop :=
  (∀ (s : State) (own : Option SlotId) (u : UnitId) (j : SlotId) (r : Record), s.record j = some r →
    r.isWaiting = true → (s.unitPass own u).holding j = some u → s.eligible j u = true) ∧
  ∀ (s t : State) (own : Option SlotId) (u : UnitId) (ahead between behind : List SlotId) (i j : SlotId),
    QueueLaw s → t = s.unitPass own u →
    s.rank (s.unit u).config.order (s.unit u).bottom (s.unit u).queue = ahead ++ i :: between ++ j :: behind →
    t.holding j = some u → s.eligible j u = true ∧ (s.eligible i u = true → t.holding i = some u)

/-- Stage C on a unit of pool p: with no waiter of p eligible for the unit nothing changes; otherwise the highest-ranked
eligible one is granted the unit, and p's bottom agent follows it under RING with the rotate flag set, and only then. A
unit of no pool has no stage C. A pool pass offers p's OPEN members without a holder, each as it then stands, in
ascending unit number. -/
def Obligations.PassStageC : Prop :=
  ∀ (s : State) (own : Option SlotId) (u : UnitId),
    ((s.unit u).config.pool = none → s.stageC own u = s) ∧
    (∀ p, (s.unit u).config.pool = some p →
      ((∀ i, i ∈ s.rank (s.pool p).order (s.pool p).bottom (s.pool p).queue → s.eligible i u = false) →
        s.stageC own u = s) ∧
      (∀ ahead i behind r g, s.rank (s.pool p).order (s.pool p).bottom (s.pool p).queue = ahead ++ i :: behind →
        (∀ j, j ∈ ahead → s.eligible j u = false) → s.eligible i u = true → s.record i = some r →
        g = s.grant own u i →
          ((s.pool p).order = .ring → (s.pool p).rotate = true →
            s.stageC own u = g.setPool p { g.pool p with bottom := r.agent }) ∧
          ((s.pool p).order = .arrival ∨ (s.pool p).rotate = false → s.stageC own u = g)) ∧
      ((s.unit u).state = .opened → s.holders u = [] → s.offer own p u = s.stageC own u) ∧
      ((s.unit u).state ≠ .opened ∨ s.holders u ≠ [] → s.offer own p u = s)) ∧
    ∀ p, s.poolPass own p =
      (allUnits.filter fun v => (s.unit v).config.pool == some p).foldl (fun s v => s.offer own p v) s

/-- What a grant pass leaves as it was: agents, stations, the control station, the configuration, the completion sets, every
slot's serial and every unit's state; a unit pass touches no other unit's record and no pool but the unit's own, and a
pool pass no other pool's. Every record is as before, or is upgraded or granted by the pass, and none ends. -/
def Obligations.PassFrame : Prop :=
  ∀ (s t : State) (own : Option SlotId) (target : Target), t = s.passOn own target →
    t.agents = s.agents ∧ t.stations = s.stations ∧ t.control = s.control ∧ t.configuration = s.configuration ∧
    t.frozen = s.frozen ∧ t.drained = s.drained ∧ t.detached = s.detached ∧ t.controlAttention = s.controlAttention ∧
    t.supervisor = s.supervisor ∧ t.inReset = s.inReset ∧ t.port = s.port ∧ t.pending = s.pending ∧
    t.timer.count = s.timer.count ∧ t.timer.reference = s.timer.reference ∧
    (∀ i, (t.slot i).serial = (s.slot i).serial) ∧ (∀ u, (t.unit u).state = (s.unit u).state) ∧
    (∀ u, target = .unit u → QueueLaw s → (∀ v, v ≠ u → t.unit v = s.unit v) ∧
      ∀ p, (s.unit u).config.pool ≠ some p → t.pool p = s.pool p) ∧
    (∀ p, target = .pool p → QueueLaw s → t.units = s.units ∧ ∀ q, q ≠ p → t.pool q = s.pool q) ∧
    (∀ a, (t.notice a).attention = (s.notice a).attention) ∧
    ∀ i r, s.record i = some r → t.record i = some r ∨ t.record i = some { r with mode := .exclusive } ∨
      ∃ u tt d c, r.standing = .waiting tt d c ∧ s.eligible i u = true ∧
        t.record i = some { r with standing := .held u 1 (effectiveDuration d (s.unit u).config.limit) }

/-! ### Laws that every step keeps -/

/-- The depth of every HELD or RECALLED record lies between 1 and 15 after a step if it did before (R94). -/
def Obligations.DepthKept : Prop := ∀ s t : State, DepthLaw s → step s = .next t → DepthLaw t

/-- The one mark of a unit names a SHARED HELD holder of that unit, and while the unit has a pending upgrade before
and after a step, no SHARED holder is added to it (R100). -/
def Obligations.PendingUpgradeKept : Prop :=
  ∀ s t : State, MarkLaw s → step s = .next t → MarkLaw t ∧
    ∀ u, (s.unit u).mark ≠ none → (t.unit u).mark ≠ none → ∀ j, j ∈ t.holders u → t.isShared j = true → j ∈ s.holders u

/-- Every WAITING record stands in exactly one wait queue, that of its unit or that of its pool, once; every wait queue
holds only WAITING records; and no queue holds two records of one agent: after a step if before (R56). -/
def Obligations.WaitQueuesKept : Prop := ∀ s t : State, QueueLaw s → step s = .next t → QueueLaw t

/-- An agent's notice queue holds at most one entry per record, only entries for that agent's own records, an entry for
every SPENT record, and never more than 8: after a step if before, where the quotas are kept too (R126). -/
def Obligations.NoticeQueuesKept : Prop :=
  ∀ s t : State, NoticeLaw s → QuotaLaw s → step s = .next t →
    NoticeLaw t ∧ ∀ a, (t.notice a).entries.length ≤ 8

/-- An EXCLUSIVE holder holds alone, SHARED holders are at most the shared capacity, and an OFFLINE unit has no holder.
An OFFLINE unit has no holder, waiter or mark; a DRAINING one no waiter, no mark and only RECALLED holders. -/
def Obligations.HoldersAndServiceKept : Prop :=
  (∀ s t : State, HolderLaw s → step s = .next t → HolderLaw t) ∧
  ∀ s t : State, ServiceLaw s → QueueLaw s → step s = .next t → ServiceLaw t

/-- A DETACHED agent has no record and no notice, a DETACHING one has a record and no notice, the agent of a SPENT record
is ATTACHED, and no agent has more records than its quota, which is at most 8. -/
def Obligations.SessionsAndQuotasKept : Prop :=
  ∀ s t : State, SessionLaw s → QuotaLaw s → step s = .next t → SessionLaw t ∧ QuotaLaw t

/-- No agent without clearance holds, or waits in a unit queue, at or above the band ceiling. -/
def Obligations.BandKept : Prop := ∀ s t : State, BandLaw s → QueueLaw s → step s = .next t → BandLaw t

/-- Configuration fields, countdowns, divider count and TKIN reference stay in their ranges, a live arrival finds a
countdown, and a record's kind admits its state and cause. -/
def Obligations.RangesKept : Prop :=
  ∀ s t : State, RangeLaw s → CountdownLaw s → TimerLaw s → ArrivalLaw s → KindLaw s → step s = .next t →
    RangeLaw t ∧ CountdownLaw t ∧ TimerLaw t ∧ ArrivalLaw t ∧ KindLaw t

/-- An agent has at most one holder record on a unit, and none on a unit in whose queue it waits; and an OPEN unit without a
holder has no eligible waiter in its own queue: after a step if before. -/
def Obligations.OneHoldKept : Prop :=
  ∀ s t : State, OneHoldLaw s → ServedLaw s → QueueLaw s → MarkLaw s → BandLaw s → ServiceLaw s → SessionLaw s →
    step s = .next t → OneHoldLaw t ∧ ServedLaw t

/-- A slot's serial changes at an allocation alone, by one modulo 256, and at POWER_ON; a record that stands in a slot
under the same serial before and after a command is the same agent's, and a command allocates at most one slot. -/
def Obligations.SerialsCountAllocations : Prop :=
  ∀ (c : Instr) (s t : State), (∀ x, c ≠ .powerOn x) → exec c s = .next t →
    (∀ i, (t.slot i).serial = (s.slot i).serial ∨
      ((t.slot i).serial = (s.slot i).serial + 1 ∧ LowestFree s i)) ∧
    (∀ i r q, s.record i = some r → t.record i = some q →
      (t.slot i).serial = (s.slot i).serial ∧ q.agent = r.agent) ∧
    ∀ i, s.record i = none → t.record i ≠ none → (t.slot i).serial = (s.slot i).serial + 1

end Statements
end

