-- ==== Sys2Proof/Laws/State.lean ====
section
/-! SUPPORT. What each register update leaves as it was, one lemma per update and register, and what it writes. -/

namespace Sys2Proof.Machine

/-! ### What an update writes -/

theorem State.unit_setUnit (s : State) (k : UnitId) (x : UnitRecord) (j : UnitId) :
    (s.setUnit k x).unit j = if j = k then x else s.unit j := by
  simp only [State.unit, State.setUnit, Vector.get_eq_getElem, Vector.getElem_set, Fin.ext_iff, eq_comm]

@[simp] theorem State.unit_setUnit_self (s : State) (k : UnitId) (x : UnitRecord) : (s.setUnit k x).unit k = x := by
  simp [State.unit_setUnit]

theorem State.unit_setUnit_of_ne (s : State) {k j : UnitId} (x : UnitRecord) (h : j ≠ k) :
    (s.setUnit k x).unit j = s.unit j := by
  simp [State.unit_setUnit, h]

theorem State.pool_setPool (s : State) (k : PoolId) (x : PoolRecord) (j : PoolId) :
    (s.setPool k x).pool j = if j = k then x else s.pool j := by
  simp only [State.pool, State.setPool, Vector.get_eq_getElem, Vector.getElem_set, Fin.ext_iff, eq_comm]

@[simp] theorem State.pool_setPool_self (s : State) (k : PoolId) (x : PoolRecord) : (s.setPool k x).pool k = x := by
  simp [State.pool_setPool]

theorem State.pool_setPool_of_ne (s : State) {k j : PoolId} (x : PoolRecord) (h : j ≠ k) :
    (s.setPool k x).pool j = s.pool j := by
  simp [State.pool_setPool, h]

theorem State.slot_setSlot (s : State) (k : SlotId) (x : Slot) (j : SlotId) :
    (s.setSlot k x).slot j = if j = k then x else s.slot j := by
  simp only [State.slot, State.setSlot, Vector.get_eq_getElem, Vector.getElem_set, Fin.ext_iff, eq_comm]

@[simp] theorem State.slot_setSlot_self (s : State) (k : SlotId) (x : Slot) : (s.setSlot k x).slot k = x := by
  simp [State.slot_setSlot]

theorem State.slot_setSlot_of_ne (s : State) {k j : SlotId} (x : Slot) (h : j ≠ k) :
    (s.setSlot k x).slot j = s.slot j := by
  simp [State.slot_setSlot, h]

theorem State.agent_setAgent (s : State) (k : AgentId) (x : AgentRecord) (j : AgentId) :
    (s.setAgent k x).agent j = if j = k then x else s.agent j := by
  simp only [State.agent, State.setAgent, Vector.get_eq_getElem, Vector.getElem_set, Fin.ext_iff, eq_comm]

@[simp] theorem State.agent_setAgent_self (s : State) (k : AgentId) (x : AgentRecord) : (s.setAgent k x).agent k = x := by
  simp [State.agent_setAgent]

theorem State.agent_setAgent_of_ne (s : State) {k j : AgentId} (x : AgentRecord) (h : j ≠ k) :
    (s.setAgent k x).agent j = s.agent j := by
  simp [State.agent_setAgent, h]

theorem State.notice_setNotice (s : State) (k : AgentId) (x : NoticeQueue) (j : AgentId) :
    (s.setNotice k x).notice j = if j = k then x else s.notice j := by
  simp only [State.notice, State.setNotice, Vector.get_eq_getElem, Vector.getElem_set, Fin.ext_iff, eq_comm]

@[simp] theorem State.notice_setNotice_self (s : State) (k : AgentId) (x : NoticeQueue) : (s.setNotice k x).notice k = x := by
  simp [State.notice_setNotice]

theorem State.notice_setNotice_of_ne (s : State) {k j : AgentId} (x : NoticeQueue) (h : j ≠ k) :
    (s.setNotice k x).notice j = s.notice j := by
  simp [State.notice_setNotice, h]

theorem State.station_setStation (s : State) (k : AgentId) (x : Station) (j : AgentId) :
    (s.setStation k x).station j = if j = k then x else s.station j := by
  simp only [State.station, State.setStation, Vector.get_eq_getElem, Vector.getElem_set, Fin.ext_iff, eq_comm]

@[simp] theorem State.station_setStation_self (s : State) (k : AgentId) (x : Station) : (s.setStation k x).station k = x := by
  simp [State.station_setStation]

theorem State.station_setStation_of_ne (s : State) {k j : AgentId} (x : Station) (h : j ≠ k) :
    (s.setStation k x).station j = s.station j := by
  simp [State.station_setStation, h]

@[simp] theorem State.setControl_control (s : State) (st : Station) : (s.setControl st).control = st := (rfl)
@[simp] theorem State.setTimer_timer (s : State) (t : Timer) : (s.setTimer t).timer = t := (rfl)
@[simp] theorem State.setPort_port (s : State) (p : PortPins) : (s.setPort p).port = p := (rfl)
@[simp] theorem State.quiet_port (s : State) : s.quiet.port = { err := false, data := none } := (rfl)
@[simp] theorem State.loadRecord_timer (s : State) (i : SlotId) (r : Option Record) :
    (s.loadRecord i r).timer = s.timer.spoil i := (rfl)

theorem State.record_writeRecord (s : State) (i : SlotId) (r : Option Record) (j : SlotId) :
    (s.writeRecord i r).record j = if j = i then r else s.record j := by
  simp only [State.record, State.writeRecord, State.slot_setSlot]; split <;> rfl

theorem State.record_loadRecord (s : State) (i : SlotId) (r : Option Record) (j : SlotId) :
    (s.loadRecord i r).record j = if j = i then r else s.record j := s.record_writeRecord i r j

theorem State.record_setSlot (s : State) (i : SlotId) (x : Slot) (j : SlotId) :
    (s.setSlot i x).record j = if j = i then x.record else s.record j := by
  simp only [State.record, State.slot_setSlot]; split <;> rfl

@[simp] theorem State.serial_writeRecord (s : State) (i : SlotId) (r : Option Record) (j : SlotId) :
    ((s.writeRecord i r).slot j).serial = (s.slot j).serial := by
  simp only [State.writeRecord, State.slot_setSlot]; split
  · next h => rw [h]
  · rfl

@[simp] theorem State.serial_loadRecord (s : State) (i : SlotId) (r : Option Record) (j : SlotId) :
    ((s.loadRecord i r).slot j).serial = (s.slot j).serial := s.serial_writeRecord i r j

@[simp] theorem State.handle_writeRecord (s : State) (i : SlotId) (r : Option Record) (j : SlotId) :
    (s.writeRecord i r).handle j = s.handle j := by simp only [State.handle, State.serial_writeRecord]

@[simp] theorem State.handle_loadRecord (s : State) (i : SlotId) (r : Option Record) (j : SlotId) :
    (s.loadRecord i r).handle j = s.handle j := s.handle_writeRecord i r j

/-! ### Writing a register twice, and writing what it holds -/

@[simp] theorem State.setUnit_setUnit (s : State) (k : UnitId) (x y : UnitRecord) : (s.setUnit k x).setUnit k y = s.setUnit k y := by
  simp [State.setUnit]

@[simp] theorem State.setUnit_self (s : State) (k : UnitId) : s.setUnit k (s.unit k) = s := by
  simp [State.setUnit, State.unit, Vector.get_eq_getElem]

@[simp] theorem State.setPool_setPool (s : State) (k : PoolId) (x y : PoolRecord) : (s.setPool k x).setPool k y = s.setPool k y := by
  simp [State.setPool]

@[simp] theorem State.setPool_self (s : State) (k : PoolId) : s.setPool k (s.pool k) = s := by
  simp [State.setPool, State.pool, Vector.get_eq_getElem]

@[simp] theorem State.setSlot_setSlot (s : State) (k : SlotId) (x y : Slot) : (s.setSlot k x).setSlot k y = s.setSlot k y := by
  simp [State.setSlot]

@[simp] theorem State.setSlot_self (s : State) (k : SlotId) : s.setSlot k (s.slot k) = s := by
  simp [State.setSlot, State.slot, Vector.get_eq_getElem]

@[simp] theorem State.setAgent_setAgent (s : State) (k : AgentId) (x y : AgentRecord) : (s.setAgent k x).setAgent k y = s.setAgent k y := by
  simp [State.setAgent]

@[simp] theorem State.setAgent_self (s : State) (k : AgentId) : s.setAgent k (s.agent k) = s := by
  simp [State.setAgent, State.agent, Vector.get_eq_getElem]

@[simp] theorem State.setNotice_setNotice (s : State) (k : AgentId) (x y : NoticeQueue) : (s.setNotice k x).setNotice k y = s.setNotice k y := by
  simp [State.setNotice]

@[simp] theorem State.setNotice_self (s : State) (k : AgentId) : s.setNotice k (s.notice k) = s := by
  simp [State.setNotice, State.notice, Vector.get_eq_getElem]

@[simp] theorem State.setStation_setStation (s : State) (k : AgentId) (x y : Station) : (s.setStation k x).setStation k y = s.setStation k y := by
  simp [State.setStation]

@[simp] theorem State.setStation_self (s : State) (k : AgentId) : s.setStation k (s.station k) = s := by
  simp [State.setStation, State.station, Vector.get_eq_getElem]

/-! ### What an update leaves as it was -/

@[simp] theorem State.setNotice_pool (s : State) (a : AgentId) (q : NoticeQueue) (p : PoolId) :
    (s.setNotice a q).pool p = s.pool p := (rfl)
@[simp] theorem State.setNotice_waitsIn (s : State) (a : AgentId) (q : NoticeQueue) (b : AgentId) (is : List SlotId) :
    (s.setNotice a q).waitsIn b is = s.waitsIn b is := (rfl)
@[simp] theorem State.setPort_members (s : State) (x : PortPins) (p : PoolId) :
    (s.setPort x).members p = s.members p := (rfl)
@[simp] theorem State.setPool_members (s : State) (p : PoolId) (r : PoolRecord) (q : PoolId) :
    (s.setPool p r).members q = s.members q := (rfl)

@[simp] theorem State.setUnit_pool (s : State) (u : UnitId) (r : UnitRecord) (q : PoolId) :
    (s.setUnit u r).pool q = s.pool q := (rfl)
@[simp] theorem State.setUnit_slot (s : State) (u : UnitId) (r : UnitRecord) (j : SlotId) :
    (s.setUnit u r).slot j = s.slot j := (rfl)
@[simp] theorem State.setUnit_record (s : State) (u : UnitId) (r : UnitRecord) (j : SlotId) :
    (s.setUnit u r).record j = s.record j := (rfl)
@[simp] theorem State.setUnit_agent (s : State) (u : UnitId) (r : UnitRecord) (b : AgentId) :
    (s.setUnit u r).agent b = s.agent b := (rfl)
@[simp] theorem State.setUnit_notice (s : State) (u : UnitId) (r : UnitRecord) (b : AgentId) :
    (s.setUnit u r).notice b = s.notice b := (rfl)
@[simp] theorem State.setUnit_station (s : State) (u : UnitId) (r : UnitRecord) (b : AgentId) :
    (s.setUnit u r).station b = s.station b := (rfl)
@[simp] theorem State.setUnit_owner (s : State) (u : UnitId) (r : UnitRecord) (j : SlotId) :
    (s.setUnit u r).owner j = s.owner j := (rfl)
@[simp] theorem State.setUnit_holding (s : State) (u : UnitId) (r : UnitRecord) (j : SlotId) :
    (s.setUnit u r).holding j = s.holding j := (rfl)
@[simp] theorem State.setUnit_isShared (s : State) (u : UnitId) (r : UnitRecord) (j : SlotId) :
    (s.setUnit u r).isShared j = s.isShared j := (rfl)
@[simp] theorem State.setUnit_holders (s : State) (u : UnitId) (r : UnitRecord) (v : UnitId) :
    (s.setUnit u r).holders v = s.holders v := (rfl)
@[simp] theorem State.setUnit_holderOf (s : State) (u : UnitId) (r : UnitRecord) (b : AgentId) (v : UnitId) :
    (s.setUnit u r).holderOf b v = s.holderOf b v := (rfl)
@[simp] theorem State.setUnit_recordCount (s : State) (u : UnitId) (r : UnitRecord) (b : AgentId) :
    (s.setUnit u r).recordCount b = s.recordCount b := (rfl)
@[simp] theorem State.setUnit_handle (s : State) (u : UnitId) (r : UnitRecord) (j : SlotId) :
    (s.setUnit u r).handle j = s.handle j := (rfl)
@[simp] theorem State.setUnit_busy (s : State) (u : UnitId) (r : UnitRecord) (b : AgentId) :
    (s.setUnit u r).busy b = s.busy b := (rfl)
@[simp] theorem State.setUnit_isAttached (s : State) (u : UnitId) (r : UnitRecord) (b : AgentId) :
    (s.setUnit u r).isAttached b = s.isAttached b := (rfl)
@[simp] theorem State.setUnit_clearance (s : State) (u : UnitId) (r : UnitRecord) (b : AgentId) :
    (s.setUnit u r).clearance b = s.clearance b := (rfl)
@[simp] theorem State.setUnit_bandPermits (s : State) (u : UnitId) (r : UnitRecord) (b : AgentId) (v : UnitId) :
    (s.setUnit u r).bandPermits b v = s.bandPermits b v := (rfl)
@[simp] theorem State.setUnit_eligible (s : State) (u : UnitId) (r : UnitRecord) (j : SlotId) (v : UnitId) :
    (s.setUnit u r).eligible j v = s.eligible j v := (rfl)
@[simp] theorem State.setUnit_waitsIn (s : State) (u : UnitId) (r : UnitRecord) (b : AgentId) (q : List SlotId) :
    (s.setUnit u r).waitsIn b q = s.waitsIn b q := (rfl)
@[simp] theorem State.setUnit_waitsOf (s : State) (u : UnitId) (r : UnitRecord) (b : AgentId) :
    (s.setUnit u r).waitsOf b = s.waitsOf b := (rfl)
@[simp] theorem State.setUnit_hasEntry (s : State) (u : UnitId) (r : UnitRecord) (b : AgentId) (j : SlotId) :
    (s.setUnit u r).hasEntry b j = s.hasEntry b j := (rfl)
@[simp] theorem State.setUnit_control (s : State) (u : UnitId) (r : UnitRecord) :
    (s.setUnit u r).control = s.control := (rfl)
@[simp] theorem State.setUnit_timer (s : State) (u : UnitId) (r : UnitRecord) : (s.setUnit u r).timer = s.timer := (rfl)
@[simp] theorem State.setUnit_ceiling (s : State) (u : UnitId) (r : UnitRecord) :
    (s.setUnit u r).ceiling = s.ceiling := (rfl)
@[simp] theorem State.setUnit_frozen (s : State) (u : UnitId) (r : UnitRecord) :
    (s.setUnit u r).frozen = s.frozen := (rfl)
@[simp] theorem State.setUnit_drained (s : State) (u : UnitId) (r : UnitRecord) :
    (s.setUnit u r).drained = s.drained := (rfl)
@[simp] theorem State.setUnit_detached (s : State) (u : UnitId) (r : UnitRecord) :
    (s.setUnit u r).detached = s.detached := (rfl)
@[simp] theorem State.setUnit_controlAttention (s : State) (u : UnitId) (r : UnitRecord) :
    (s.setUnit u r).controlAttention = s.controlAttention := (rfl)
@[simp] theorem State.setUnit_supervisor (s : State) (u : UnitId) (r : UnitRecord) :
    (s.setUnit u r).supervisor = s.supervisor := (rfl)
@[simp] theorem State.setUnit_inReset (s : State) (u : UnitId) (r : UnitRecord) :
    (s.setUnit u r).inReset = s.inReset := (rfl)
@[simp] theorem State.setUnit_port (s : State) (u : UnitId) (r : UnitRecord) : (s.setUnit u r).port = s.port := (rfl)
@[simp] theorem State.setUnit_pending (s : State) (u : UnitId) (r : UnitRecord) :
    (s.setUnit u r).pending = s.pending := (rfl)
@[simp] theorem State.setPool_unit (s : State) (p : PoolId) (r : PoolRecord) (v : UnitId) :
    (s.setPool p r).unit v = s.unit v := (rfl)
@[simp] theorem State.setPool_slot (s : State) (p : PoolId) (r : PoolRecord) (j : SlotId) :
    (s.setPool p r).slot j = s.slot j := (rfl)
@[simp] theorem State.setPool_record (s : State) (p : PoolId) (r : PoolRecord) (j : SlotId) :
    (s.setPool p r).record j = s.record j := (rfl)
@[simp] theorem State.setPool_agent (s : State) (p : PoolId) (r : PoolRecord) (b : AgentId) :
    (s.setPool p r).agent b = s.agent b := (rfl)
@[simp] theorem State.setPool_notice (s : State) (p : PoolId) (r : PoolRecord) (b : AgentId) :
    (s.setPool p r).notice b = s.notice b := (rfl)
@[simp] theorem State.setPool_station (s : State) (p : PoolId) (r : PoolRecord) (b : AgentId) :
    (s.setPool p r).station b = s.station b := (rfl)
@[simp] theorem State.setPool_owner (s : State) (p : PoolId) (r : PoolRecord) (j : SlotId) :
    (s.setPool p r).owner j = s.owner j := (rfl)
@[simp] theorem State.setPool_holding (s : State) (p : PoolId) (r : PoolRecord) (j : SlotId) :
    (s.setPool p r).holding j = s.holding j := (rfl)
@[simp] theorem State.setPool_isShared (s : State) (p : PoolId) (r : PoolRecord) (j : SlotId) :
    (s.setPool p r).isShared j = s.isShared j := (rfl)
@[simp] theorem State.setPool_holders (s : State) (p : PoolId) (r : PoolRecord) (v : UnitId) :
    (s.setPool p r).holders v = s.holders v := (rfl)
@[simp] theorem State.setPool_holderOf (s : State) (p : PoolId) (r : PoolRecord) (b : AgentId) (v : UnitId) :
    (s.setPool p r).holderOf b v = s.holderOf b v := (rfl)
@[simp] theorem State.setPool_recordCount (s : State) (p : PoolId) (r : PoolRecord) (b : AgentId) :
    (s.setPool p r).recordCount b = s.recordCount b := (rfl)
@[simp] theorem State.setPool_handle (s : State) (p : PoolId) (r : PoolRecord) (j : SlotId) :
    (s.setPool p r).handle j = s.handle j := (rfl)
@[simp] theorem State.setPool_upgradePending (s : State) (p : PoolId) (r : PoolRecord) (j : SlotId) :
    (s.setPool p r).upgradePending j = s.upgradePending j := (rfl)
@[simp] theorem State.setPool_busy (s : State) (p : PoolId) (r : PoolRecord) (b : AgentId) :
    (s.setPool p r).busy b = s.busy b := (rfl)
@[simp] theorem State.setPool_isAttached (s : State) (p : PoolId) (r : PoolRecord) (b : AgentId) :
    (s.setPool p r).isAttached b = s.isAttached b := (rfl)
@[simp] theorem State.setPool_clearance (s : State) (p : PoolId) (r : PoolRecord) (b : AgentId) :
    (s.setPool p r).clearance b = s.clearance b := (rfl)
@[simp] theorem State.setPool_bandPermits (s : State) (p : PoolId) (r : PoolRecord) (b : AgentId) (v : UnitId) :
    (s.setPool p r).bandPermits b v = s.bandPermits b v := (rfl)
@[simp] theorem State.setPool_eligible (s : State) (p : PoolId) (r : PoolRecord) (j : SlotId) (v : UnitId) :
    (s.setPool p r).eligible j v = s.eligible j v := (rfl)
@[simp] theorem State.setPool_compatible (s : State) (p : PoolId) (r : PoolRecord) (m : Mode) (v : UnitId) :
    (s.setPool p r).compatible m v = s.compatible m v := (rfl)
@[simp] theorem State.setPool_waitsIn (s : State) (p : PoolId) (r : PoolRecord) (b : AgentId) (q : List SlotId) :
    (s.setPool p r).waitsIn b q = s.waitsIn b q := (rfl)
@[simp] theorem State.setPool_waitsOf (s : State) (p : PoolId) (r : PoolRecord) (b : AgentId) :
    (s.setPool p r).waitsOf b = s.waitsOf b := (rfl)
@[simp] theorem State.setPool_hasEntry (s : State) (p : PoolId) (r : PoolRecord) (b : AgentId) (j : SlotId) :
    (s.setPool p r).hasEntry b j = s.hasEntry b j := (rfl)
@[simp] theorem State.setPool_control (s : State) (p : PoolId) (r : PoolRecord) :
    (s.setPool p r).control = s.control := (rfl)
@[simp] theorem State.setPool_timer (s : State) (p : PoolId) (r : PoolRecord) : (s.setPool p r).timer = s.timer := (rfl)
@[simp] theorem State.setPool_ceiling (s : State) (p : PoolId) (r : PoolRecord) :
    (s.setPool p r).ceiling = s.ceiling := (rfl)
@[simp] theorem State.setPool_frozen (s : State) (p : PoolId) (r : PoolRecord) :
    (s.setPool p r).frozen = s.frozen := (rfl)
@[simp] theorem State.setPool_drained (s : State) (p : PoolId) (r : PoolRecord) :
    (s.setPool p r).drained = s.drained := (rfl)
@[simp] theorem State.setPool_detached (s : State) (p : PoolId) (r : PoolRecord) :
    (s.setPool p r).detached = s.detached := (rfl)
@[simp] theorem State.setPool_controlAttention (s : State) (p : PoolId) (r : PoolRecord) :
    (s.setPool p r).controlAttention = s.controlAttention := (rfl)
@[simp] theorem State.setPool_supervisor (s : State) (p : PoolId) (r : PoolRecord) :
    (s.setPool p r).supervisor = s.supervisor := (rfl)
@[simp] theorem State.setPool_inReset (s : State) (p : PoolId) (r : PoolRecord) :
    (s.setPool p r).inReset = s.inReset := (rfl)
@[simp] theorem State.setPool_port (s : State) (p : PoolId) (r : PoolRecord) : (s.setPool p r).port = s.port := (rfl)
@[simp] theorem State.setPool_pending (s : State) (p : PoolId) (r : PoolRecord) :
    (s.setPool p r).pending = s.pending := (rfl)
@[simp] theorem State.setSlot_unit (s : State) (i : SlotId) (x : Slot) (v : UnitId) :
    (s.setSlot i x).unit v = s.unit v := (rfl)
@[simp] theorem State.setSlot_pool (s : State) (i : SlotId) (x : Slot) (q : PoolId) :
    (s.setSlot i x).pool q = s.pool q := (rfl)
@[simp] theorem State.setSlot_agent (s : State) (i : SlotId) (x : Slot) (b : AgentId) :
    (s.setSlot i x).agent b = s.agent b := (rfl)
@[simp] theorem State.setSlot_notice (s : State) (i : SlotId) (x : Slot) (b : AgentId) :
    (s.setSlot i x).notice b = s.notice b := (rfl)
@[simp] theorem State.setSlot_station (s : State) (i : SlotId) (x : Slot) (b : AgentId) :
    (s.setSlot i x).station b = s.station b := (rfl)
@[simp] theorem State.setSlot_busy (s : State) (i : SlotId) (x : Slot) (b : AgentId) :
    (s.setSlot i x).busy b = s.busy b := (rfl)
@[simp] theorem State.setSlot_isAttached (s : State) (i : SlotId) (x : Slot) (b : AgentId) :
    (s.setSlot i x).isAttached b = s.isAttached b := (rfl)
@[simp] theorem State.setSlot_clearance (s : State) (i : SlotId) (x : Slot) (b : AgentId) :
    (s.setSlot i x).clearance b = s.clearance b := (rfl)
@[simp] theorem State.setSlot_bandPermits (s : State) (i : SlotId) (x : Slot) (b : AgentId) (v : UnitId) :
    (s.setSlot i x).bandPermits b v = s.bandPermits b v := (rfl)
@[simp] theorem State.setSlot_members (s : State) (i : SlotId) (x : Slot) (p : PoolId) :
    (s.setSlot i x).members p = s.members p := (rfl)
@[simp] theorem State.setSlot_control (s : State) (i : SlotId) (x : Slot) : (s.setSlot i x).control = s.control := (rfl)
@[simp] theorem State.setSlot_timer (s : State) (i : SlotId) (x : Slot) : (s.setSlot i x).timer = s.timer := (rfl)
@[simp] theorem State.setSlot_ceiling (s : State) (i : SlotId) (x : Slot) : (s.setSlot i x).ceiling = s.ceiling := (rfl)
@[simp] theorem State.setSlot_frozen (s : State) (i : SlotId) (x : Slot) : (s.setSlot i x).frozen = s.frozen := (rfl)
@[simp] theorem State.setSlot_drained (s : State) (i : SlotId) (x : Slot) : (s.setSlot i x).drained = s.drained := (rfl)
@[simp] theorem State.setSlot_detached (s : State) (i : SlotId) (x : Slot) :
    (s.setSlot i x).detached = s.detached := (rfl)
@[simp] theorem State.setSlot_controlAttention (s : State) (i : SlotId) (x : Slot) :
    (s.setSlot i x).controlAttention = s.controlAttention := (rfl)
@[simp] theorem State.setSlot_supervisor (s : State) (i : SlotId) (x : Slot) :
    (s.setSlot i x).supervisor = s.supervisor := (rfl)
@[simp] theorem State.setSlot_inReset (s : State) (i : SlotId) (x : Slot) : (s.setSlot i x).inReset = s.inReset := (rfl)
@[simp] theorem State.setSlot_port (s : State) (i : SlotId) (x : Slot) : (s.setSlot i x).port = s.port := (rfl)
@[simp] theorem State.setSlot_pending (s : State) (i : SlotId) (x : Slot) : (s.setSlot i x).pending = s.pending := (rfl)
@[simp] theorem State.setAgent_unit (s : State) (a : AgentId) (r : AgentRecord) (v : UnitId) :
    (s.setAgent a r).unit v = s.unit v := (rfl)
@[simp] theorem State.setAgent_pool (s : State) (a : AgentId) (r : AgentRecord) (q : PoolId) :
    (s.setAgent a r).pool q = s.pool q := (rfl)
@[simp] theorem State.setAgent_slot (s : State) (a : AgentId) (r : AgentRecord) (j : SlotId) :
    (s.setAgent a r).slot j = s.slot j := (rfl)
@[simp] theorem State.setAgent_record (s : State) (a : AgentId) (r : AgentRecord) (j : SlotId) :
    (s.setAgent a r).record j = s.record j := (rfl)
@[simp] theorem State.setAgent_notice (s : State) (a : AgentId) (r : AgentRecord) (b : AgentId) :
    (s.setAgent a r).notice b = s.notice b := (rfl)
@[simp] theorem State.setAgent_station (s : State) (a : AgentId) (r : AgentRecord) (b : AgentId) :
    (s.setAgent a r).station b = s.station b := (rfl)
@[simp] theorem State.setAgent_owner (s : State) (a : AgentId) (r : AgentRecord) (j : SlotId) :
    (s.setAgent a r).owner j = s.owner j := (rfl)
@[simp] theorem State.setAgent_holding (s : State) (a : AgentId) (r : AgentRecord) (j : SlotId) :
    (s.setAgent a r).holding j = s.holding j := (rfl)
@[simp] theorem State.setAgent_isShared (s : State) (a : AgentId) (r : AgentRecord) (j : SlotId) :
    (s.setAgent a r).isShared j = s.isShared j := (rfl)
@[simp] theorem State.setAgent_holders (s : State) (a : AgentId) (r : AgentRecord) (v : UnitId) :
    (s.setAgent a r).holders v = s.holders v := (rfl)
@[simp] theorem State.setAgent_holderOf (s : State) (a : AgentId) (r : AgentRecord) (b : AgentId) (v : UnitId) :
    (s.setAgent a r).holderOf b v = s.holderOf b v := (rfl)
@[simp] theorem State.setAgent_recordCount (s : State) (a : AgentId) (r : AgentRecord) (b : AgentId) :
    (s.setAgent a r).recordCount b = s.recordCount b := (rfl)
@[simp] theorem State.setAgent_handle (s : State) (a : AgentId) (r : AgentRecord) (j : SlotId) :
    (s.setAgent a r).handle j = s.handle j := (rfl)
@[simp] theorem State.setAgent_upgradePending (s : State) (a : AgentId) (r : AgentRecord) (j : SlotId) :
    (s.setAgent a r).upgradePending j = s.upgradePending j := (rfl)
@[simp] theorem State.setAgent_compatible (s : State) (a : AgentId) (r : AgentRecord) (m : Mode) (v : UnitId) :
    (s.setAgent a r).compatible m v = s.compatible m v := (rfl)
@[simp] theorem State.setAgent_waitsIn (s : State) (a : AgentId) (r : AgentRecord) (b : AgentId) (q : List SlotId) :
    (s.setAgent a r).waitsIn b q = s.waitsIn b q := (rfl)
@[simp] theorem State.setAgent_waitsOf (s : State) (a : AgentId) (r : AgentRecord) (b : AgentId) :
    (s.setAgent a r).waitsOf b = s.waitsOf b := (rfl)
@[simp] theorem State.setAgent_members (s : State) (a : AgentId) (r : AgentRecord) (p : PoolId) :
    (s.setAgent a r).members p = s.members p := (rfl)
@[simp] theorem State.setAgent_hasEntry (s : State) (a : AgentId) (r : AgentRecord) (b : AgentId) (j : SlotId) :
    (s.setAgent a r).hasEntry b j = s.hasEntry b j := (rfl)
@[simp] theorem State.setAgent_control (s : State) (a : AgentId) (r : AgentRecord) :
    (s.setAgent a r).control = s.control := (rfl)
@[simp] theorem State.setAgent_timer (s : State) (a : AgentId) (r : AgentRecord) :
    (s.setAgent a r).timer = s.timer := (rfl)
@[simp] theorem State.setAgent_ceiling (s : State) (a : AgentId) (r : AgentRecord) :
    (s.setAgent a r).ceiling = s.ceiling := (rfl)
@[simp] theorem State.setAgent_frozen (s : State) (a : AgentId) (r : AgentRecord) :
    (s.setAgent a r).frozen = s.frozen := (rfl)
@[simp] theorem State.setAgent_drained (s : State) (a : AgentId) (r : AgentRecord) :
    (s.setAgent a r).drained = s.drained := (rfl)
@[simp] theorem State.setAgent_detached (s : State) (a : AgentId) (r : AgentRecord) :
    (s.setAgent a r).detached = s.detached := (rfl)
@[simp] theorem State.setAgent_controlAttention (s : State) (a : AgentId) (r : AgentRecord) :
    (s.setAgent a r).controlAttention = s.controlAttention := (rfl)
@[simp] theorem State.setAgent_supervisor (s : State) (a : AgentId) (r : AgentRecord) :
    (s.setAgent a r).supervisor = s.supervisor := (rfl)
@[simp] theorem State.setAgent_inReset (s : State) (a : AgentId) (r : AgentRecord) :
    (s.setAgent a r).inReset = s.inReset := (rfl)
@[simp] theorem State.setAgent_port (s : State) (a : AgentId) (r : AgentRecord) : (s.setAgent a r).port = s.port := (rfl)
@[simp] theorem State.setAgent_pending (s : State) (a : AgentId) (r : AgentRecord) :
    (s.setAgent a r).pending = s.pending := (rfl)
@[simp] theorem State.setNotice_unit (s : State) (a : AgentId) (q : NoticeQueue) (v : UnitId) :
    (s.setNotice a q).unit v = s.unit v := (rfl)
@[simp] theorem State.setNotice_slot (s : State) (a : AgentId) (q : NoticeQueue) (j : SlotId) :
    (s.setNotice a q).slot j = s.slot j := (rfl)
@[simp] theorem State.setNotice_record (s : State) (a : AgentId) (q : NoticeQueue) (j : SlotId) :
    (s.setNotice a q).record j = s.record j := (rfl)
@[simp] theorem State.setNotice_agent (s : State) (a : AgentId) (q : NoticeQueue) (b : AgentId) :
    (s.setNotice a q).agent b = s.agent b := (rfl)
@[simp] theorem State.setNotice_station (s : State) (a : AgentId) (q : NoticeQueue) (b : AgentId) :
    (s.setNotice a q).station b = s.station b := (rfl)
@[simp] theorem State.setNotice_owner (s : State) (a : AgentId) (q : NoticeQueue) (j : SlotId) :
    (s.setNotice a q).owner j = s.owner j := (rfl)
@[simp] theorem State.setNotice_holding (s : State) (a : AgentId) (q : NoticeQueue) (j : SlotId) :
    (s.setNotice a q).holding j = s.holding j := (rfl)
@[simp] theorem State.setNotice_isShared (s : State) (a : AgentId) (q : NoticeQueue) (j : SlotId) :
    (s.setNotice a q).isShared j = s.isShared j := (rfl)
@[simp] theorem State.setNotice_holders (s : State) (a : AgentId) (q : NoticeQueue) (v : UnitId) :
    (s.setNotice a q).holders v = s.holders v := (rfl)
@[simp] theorem State.setNotice_holderOf (s : State) (a : AgentId) (q : NoticeQueue) (b : AgentId) (v : UnitId) :
    (s.setNotice a q).holderOf b v = s.holderOf b v := (rfl)
@[simp] theorem State.setNotice_recordCount (s : State) (a : AgentId) (q : NoticeQueue) (b : AgentId) :
    (s.setNotice a q).recordCount b = s.recordCount b := (rfl)
@[simp] theorem State.setNotice_handle (s : State) (a : AgentId) (q : NoticeQueue) (j : SlotId) :
    (s.setNotice a q).handle j = s.handle j := (rfl)
@[simp] theorem State.setNotice_upgradePending (s : State) (a : AgentId) (q : NoticeQueue) (j : SlotId) :
    (s.setNotice a q).upgradePending j = s.upgradePending j := (rfl)
@[simp] theorem State.setNotice_busy (s : State) (a : AgentId) (q : NoticeQueue) (b : AgentId) :
    (s.setNotice a q).busy b = s.busy b := (rfl)
@[simp] theorem State.setNotice_isAttached (s : State) (a : AgentId) (q : NoticeQueue) (b : AgentId) :
    (s.setNotice a q).isAttached b = s.isAttached b := (rfl)
@[simp] theorem State.setNotice_clearance (s : State) (a : AgentId) (q : NoticeQueue) (b : AgentId) :
    (s.setNotice a q).clearance b = s.clearance b := (rfl)
@[simp] theorem State.setNotice_bandPermits (s : State) (a : AgentId) (q : NoticeQueue) (b : AgentId) (v : UnitId) :
    (s.setNotice a q).bandPermits b v = s.bandPermits b v := (rfl)
@[simp] theorem State.setNotice_eligible (s : State) (a : AgentId) (q : NoticeQueue) (j : SlotId) (v : UnitId) :
    (s.setNotice a q).eligible j v = s.eligible j v := (rfl)
@[simp] theorem State.setNotice_compatible (s : State) (a : AgentId) (q : NoticeQueue) (m : Mode) (v : UnitId) :
    (s.setNotice a q).compatible m v = s.compatible m v := (rfl)
@[simp] theorem State.setNotice_waitsOf (s : State) (a : AgentId) (q : NoticeQueue) (b : AgentId) :
    (s.setNotice a q).waitsOf b = s.waitsOf b := (rfl)
@[simp] theorem State.setNotice_members (s : State) (a : AgentId) (q : NoticeQueue) (p : PoolId) :
    (s.setNotice a q).members p = s.members p := (rfl)
@[simp] theorem State.setNotice_control (s : State) (a : AgentId) (q : NoticeQueue) :
    (s.setNotice a q).control = s.control := (rfl)
@[simp] theorem State.setNotice_timer (s : State) (a : AgentId) (q : NoticeQueue) :
    (s.setNotice a q).timer = s.timer := (rfl)
@[simp] theorem State.setNotice_ceiling (s : State) (a : AgentId) (q : NoticeQueue) :
    (s.setNotice a q).ceiling = s.ceiling := (rfl)
@[simp] theorem State.setNotice_frozen (s : State) (a : AgentId) (q : NoticeQueue) :
    (s.setNotice a q).frozen = s.frozen := (rfl)
@[simp] theorem State.setNotice_drained (s : State) (a : AgentId) (q : NoticeQueue) :
    (s.setNotice a q).drained = s.drained := (rfl)
@[simp] theorem State.setNotice_detached (s : State) (a : AgentId) (q : NoticeQueue) :
    (s.setNotice a q).detached = s.detached := (rfl)
@[simp] theorem State.setNotice_controlAttention (s : State) (a : AgentId) (q : NoticeQueue) :
    (s.setNotice a q).controlAttention = s.controlAttention := (rfl)
@[simp] theorem State.setNotice_supervisor (s : State) (a : AgentId) (q : NoticeQueue) :
    (s.setNotice a q).supervisor = s.supervisor := (rfl)
@[simp] theorem State.setNotice_inReset (s : State) (a : AgentId) (q : NoticeQueue) :
    (s.setNotice a q).inReset = s.inReset := (rfl)
@[simp] theorem State.setNotice_port (s : State) (a : AgentId) (q : NoticeQueue) :
    (s.setNotice a q).port = s.port := (rfl)
@[simp] theorem State.setNotice_pending (s : State) (a : AgentId) (q : NoticeQueue) :
    (s.setNotice a q).pending = s.pending := (rfl)
@[simp] theorem State.setStation_unit (s : State) (a : AgentId) (st : Station) (v : UnitId) :
    (s.setStation a st).unit v = s.unit v := (rfl)
@[simp] theorem State.setStation_pool (s : State) (a : AgentId) (st : Station) (q : PoolId) :
    (s.setStation a st).pool q = s.pool q := (rfl)
@[simp] theorem State.setStation_slot (s : State) (a : AgentId) (st : Station) (j : SlotId) :
    (s.setStation a st).slot j = s.slot j := (rfl)
@[simp] theorem State.setStation_record (s : State) (a : AgentId) (st : Station) (j : SlotId) :
    (s.setStation a st).record j = s.record j := (rfl)
@[simp] theorem State.setStation_agent (s : State) (a : AgentId) (st : Station) (b : AgentId) :
    (s.setStation a st).agent b = s.agent b := (rfl)
@[simp] theorem State.setStation_notice (s : State) (a : AgentId) (st : Station) (b : AgentId) :
    (s.setStation a st).notice b = s.notice b := (rfl)
@[simp] theorem State.setStation_owner (s : State) (a : AgentId) (st : Station) (j : SlotId) :
    (s.setStation a st).owner j = s.owner j := (rfl)
@[simp] theorem State.setStation_holding (s : State) (a : AgentId) (st : Station) (j : SlotId) :
    (s.setStation a st).holding j = s.holding j := (rfl)
@[simp] theorem State.setStation_isShared (s : State) (a : AgentId) (st : Station) (j : SlotId) :
    (s.setStation a st).isShared j = s.isShared j := (rfl)
@[simp] theorem State.setStation_holders (s : State) (a : AgentId) (st : Station) (v : UnitId) :
    (s.setStation a st).holders v = s.holders v := (rfl)
@[simp] theorem State.setStation_holderOf (s : State) (a : AgentId) (st : Station) (b : AgentId) (v : UnitId) :
    (s.setStation a st).holderOf b v = s.holderOf b v := (rfl)
@[simp] theorem State.setStation_recordCount (s : State) (a : AgentId) (st : Station) (b : AgentId) :
    (s.setStation a st).recordCount b = s.recordCount b := (rfl)
@[simp] theorem State.setStation_handle (s : State) (a : AgentId) (st : Station) (j : SlotId) :
    (s.setStation a st).handle j = s.handle j := (rfl)
@[simp] theorem State.setStation_upgradePending (s : State) (a : AgentId) (st : Station) (j : SlotId) :
    (s.setStation a st).upgradePending j = s.upgradePending j := (rfl)
@[simp] theorem State.setStation_busy (s : State) (a : AgentId) (st : Station) (b : AgentId) :
    (s.setStation a st).busy b = s.busy b := (rfl)
@[simp] theorem State.setStation_isAttached (s : State) (a : AgentId) (st : Station) (b : AgentId) :
    (s.setStation a st).isAttached b = s.isAttached b := (rfl)
@[simp] theorem State.setStation_clearance (s : State) (a : AgentId) (st : Station) (b : AgentId) :
    (s.setStation a st).clearance b = s.clearance b := (rfl)
@[simp] theorem State.setStation_bandPermits (s : State) (a : AgentId) (st : Station) (b : AgentId) (v : UnitId) :
    (s.setStation a st).bandPermits b v = s.bandPermits b v := (rfl)
@[simp] theorem State.setStation_eligible (s : State) (a : AgentId) (st : Station) (j : SlotId) (v : UnitId) :
    (s.setStation a st).eligible j v = s.eligible j v := (rfl)
@[simp] theorem State.setStation_compatible (s : State) (a : AgentId) (st : Station) (m : Mode) (v : UnitId) :
    (s.setStation a st).compatible m v = s.compatible m v := (rfl)
@[simp] theorem State.setStation_waitsIn (s : State) (a : AgentId) (st : Station) (b : AgentId) (q : List SlotId) :
    (s.setStation a st).waitsIn b q = s.waitsIn b q := (rfl)
@[simp] theorem State.setStation_waitsOf (s : State) (a : AgentId) (st : Station) (b : AgentId) :
    (s.setStation a st).waitsOf b = s.waitsOf b := (rfl)
@[simp] theorem State.setStation_members (s : State) (a : AgentId) (st : Station) (p : PoolId) :
    (s.setStation a st).members p = s.members p := (rfl)
@[simp] theorem State.setStation_hasEntry (s : State) (a : AgentId) (st : Station) (b : AgentId) (j : SlotId) :
    (s.setStation a st).hasEntry b j = s.hasEntry b j := (rfl)
@[simp] theorem State.setStation_control (s : State) (a : AgentId) (st : Station) :
    (s.setStation a st).control = s.control := (rfl)
@[simp] theorem State.setStation_timer (s : State) (a : AgentId) (st : Station) :
    (s.setStation a st).timer = s.timer := (rfl)
@[simp] theorem State.setStation_ceiling (s : State) (a : AgentId) (st : Station) :
    (s.setStation a st).ceiling = s.ceiling := (rfl)
@[simp] theorem State.setStation_frozen (s : State) (a : AgentId) (st : Station) :
    (s.setStation a st).frozen = s.frozen := (rfl)
@[simp] theorem State.setStation_drained (s : State) (a : AgentId) (st : Station) :
    (s.setStation a st).drained = s.drained := (rfl)
@[simp] theorem State.setStation_detached (s : State) (a : AgentId) (st : Station) :
    (s.setStation a st).detached = s.detached := (rfl)
@[simp] theorem State.setStation_controlAttention (s : State) (a : AgentId) (st : Station) :
    (s.setStation a st).controlAttention = s.controlAttention := (rfl)
@[simp] theorem State.setStation_supervisor (s : State) (a : AgentId) (st : Station) :
    (s.setStation a st).supervisor = s.supervisor := (rfl)
@[simp] theorem State.setStation_inReset (s : State) (a : AgentId) (st : Station) :
    (s.setStation a st).inReset = s.inReset := (rfl)
@[simp] theorem State.setStation_port (s : State) (a : AgentId) (st : Station) :
    (s.setStation a st).port = s.port := (rfl)
@[simp] theorem State.setStation_pending (s : State) (a : AgentId) (st : Station) :
    (s.setStation a st).pending = s.pending := (rfl)
@[simp] theorem State.setControl_unit (s : State) (st : Station) (v : UnitId) :
    (s.setControl st).unit v = s.unit v := (rfl)
@[simp] theorem State.setControl_pool (s : State) (st : Station) (q : PoolId) :
    (s.setControl st).pool q = s.pool q := (rfl)
@[simp] theorem State.setControl_slot (s : State) (st : Station) (j : SlotId) :
    (s.setControl st).slot j = s.slot j := (rfl)
@[simp] theorem State.setControl_record (s : State) (st : Station) (j : SlotId) :
    (s.setControl st).record j = s.record j := (rfl)
@[simp] theorem State.setControl_agent (s : State) (st : Station) (b : AgentId) :
    (s.setControl st).agent b = s.agent b := (rfl)
@[simp] theorem State.setControl_notice (s : State) (st : Station) (b : AgentId) :
    (s.setControl st).notice b = s.notice b := (rfl)
@[simp] theorem State.setControl_station (s : State) (st : Station) (b : AgentId) :
    (s.setControl st).station b = s.station b := (rfl)
@[simp] theorem State.setControl_owner (s : State) (st : Station) (j : SlotId) :
    (s.setControl st).owner j = s.owner j := (rfl)
@[simp] theorem State.setControl_holding (s : State) (st : Station) (j : SlotId) :
    (s.setControl st).holding j = s.holding j := (rfl)
@[simp] theorem State.setControl_isShared (s : State) (st : Station) (j : SlotId) :
    (s.setControl st).isShared j = s.isShared j := (rfl)
@[simp] theorem State.setControl_holders (s : State) (st : Station) (v : UnitId) :
    (s.setControl st).holders v = s.holders v := (rfl)
@[simp] theorem State.setControl_holderOf (s : State) (st : Station) (b : AgentId) (v : UnitId) :
    (s.setControl st).holderOf b v = s.holderOf b v := (rfl)
@[simp] theorem State.setControl_recordCount (s : State) (st : Station) (b : AgentId) :
    (s.setControl st).recordCount b = s.recordCount b := (rfl)
@[simp] theorem State.setControl_handle (s : State) (st : Station) (j : SlotId) :
    (s.setControl st).handle j = s.handle j := (rfl)
@[simp] theorem State.setControl_upgradePending (s : State) (st : Station) (j : SlotId) :
    (s.setControl st).upgradePending j = s.upgradePending j := (rfl)
@[simp] theorem State.setControl_busy (s : State) (st : Station) (b : AgentId) :
    (s.setControl st).busy b = s.busy b := (rfl)
@[simp] theorem State.setControl_isAttached (s : State) (st : Station) (b : AgentId) :
    (s.setControl st).isAttached b = s.isAttached b := (rfl)
@[simp] theorem State.setControl_clearance (s : State) (st : Station) (b : AgentId) :
    (s.setControl st).clearance b = s.clearance b := (rfl)
@[simp] theorem State.setControl_bandPermits (s : State) (st : Station) (b : AgentId) (v : UnitId) :
    (s.setControl st).bandPermits b v = s.bandPermits b v := (rfl)
@[simp] theorem State.setControl_eligible (s : State) (st : Station) (j : SlotId) (v : UnitId) :
    (s.setControl st).eligible j v = s.eligible j v := (rfl)
@[simp] theorem State.setControl_compatible (s : State) (st : Station) (m : Mode) (v : UnitId) :
    (s.setControl st).compatible m v = s.compatible m v := (rfl)
@[simp] theorem State.setControl_waitsIn (s : State) (st : Station) (b : AgentId) (q : List SlotId) :
    (s.setControl st).waitsIn b q = s.waitsIn b q := (rfl)
@[simp] theorem State.setControl_waitsOf (s : State) (st : Station) (b : AgentId) :
    (s.setControl st).waitsOf b = s.waitsOf b := (rfl)
@[simp] theorem State.setControl_members (s : State) (st : Station) (p : PoolId) :
    (s.setControl st).members p = s.members p := (rfl)
@[simp] theorem State.setControl_hasEntry (s : State) (st : Station) (b : AgentId) (j : SlotId) :
    (s.setControl st).hasEntry b j = s.hasEntry b j := (rfl)
@[simp] theorem State.setControl_timer (s : State) (st : Station) : (s.setControl st).timer = s.timer := (rfl)
@[simp] theorem State.setControl_ceiling (s : State) (st : Station) : (s.setControl st).ceiling = s.ceiling := (rfl)
@[simp] theorem State.setControl_frozen (s : State) (st : Station) : (s.setControl st).frozen = s.frozen := (rfl)
@[simp] theorem State.setControl_drained (s : State) (st : Station) : (s.setControl st).drained = s.drained := (rfl)
@[simp] theorem State.setControl_detached (s : State) (st : Station) : (s.setControl st).detached = s.detached := (rfl)
@[simp] theorem State.setControl_controlAttention (s : State) (st : Station) :
    (s.setControl st).controlAttention = s.controlAttention := (rfl)
@[simp] theorem State.setControl_supervisor (s : State) (st : Station) :
    (s.setControl st).supervisor = s.supervisor := (rfl)
@[simp] theorem State.setControl_inReset (s : State) (st : Station) : (s.setControl st).inReset = s.inReset := (rfl)
@[simp] theorem State.setControl_port (s : State) (st : Station) : (s.setControl st).port = s.port := (rfl)
@[simp] theorem State.setControl_pending (s : State) (st : Station) : (s.setControl st).pending = s.pending := (rfl)
@[simp] theorem State.setTimer_unit (s : State) (t : Timer) (v : UnitId) : (s.setTimer t).unit v = s.unit v := (rfl)
@[simp] theorem State.setTimer_pool (s : State) (t : Timer) (q : PoolId) : (s.setTimer t).pool q = s.pool q := (rfl)
@[simp] theorem State.setTimer_slot (s : State) (t : Timer) (j : SlotId) : (s.setTimer t).slot j = s.slot j := (rfl)
@[simp] theorem State.setTimer_record (s : State) (t : Timer) (j : SlotId) : (s.setTimer t).record j = s.record j := (rfl)
@[simp] theorem State.setTimer_agent (s : State) (t : Timer) (b : AgentId) : (s.setTimer t).agent b = s.agent b := (rfl)
@[simp] theorem State.setTimer_notice (s : State) (t : Timer) (b : AgentId) :
    (s.setTimer t).notice b = s.notice b := (rfl)
@[simp] theorem State.setTimer_station (s : State) (t : Timer) (b : AgentId) :
    (s.setTimer t).station b = s.station b := (rfl)
@[simp] theorem State.setTimer_owner (s : State) (t : Timer) (j : SlotId) : (s.setTimer t).owner j = s.owner j := (rfl)
@[simp] theorem State.setTimer_holding (s : State) (t : Timer) (j : SlotId) :
    (s.setTimer t).holding j = s.holding j := (rfl)
@[simp] theorem State.setTimer_isShared (s : State) (t : Timer) (j : SlotId) :
    (s.setTimer t).isShared j = s.isShared j := (rfl)
@[simp] theorem State.setTimer_holders (s : State) (t : Timer) (v : UnitId) :
    (s.setTimer t).holders v = s.holders v := (rfl)
@[simp] theorem State.setTimer_holderOf (s : State) (t : Timer) (b : AgentId) (v : UnitId) :
    (s.setTimer t).holderOf b v = s.holderOf b v := (rfl)
@[simp] theorem State.setTimer_recordCount (s : State) (t : Timer) (b : AgentId) :
    (s.setTimer t).recordCount b = s.recordCount b := (rfl)
@[simp] theorem State.setTimer_handle (s : State) (t : Timer) (j : SlotId) : (s.setTimer t).handle j = s.handle j := (rfl)
@[simp] theorem State.setTimer_upgradePending (s : State) (t : Timer) (j : SlotId) :
    (s.setTimer t).upgradePending j = s.upgradePending j := (rfl)
@[simp] theorem State.setTimer_busy (s : State) (t : Timer) (b : AgentId) : (s.setTimer t).busy b = s.busy b := (rfl)
@[simp] theorem State.setTimer_isAttached (s : State) (t : Timer) (b : AgentId) :
    (s.setTimer t).isAttached b = s.isAttached b := (rfl)
@[simp] theorem State.setTimer_clearance (s : State) (t : Timer) (b : AgentId) :
    (s.setTimer t).clearance b = s.clearance b := (rfl)
@[simp] theorem State.setTimer_bandPermits (s : State) (t : Timer) (b : AgentId) (v : UnitId) :
    (s.setTimer t).bandPermits b v = s.bandPermits b v := (rfl)
@[simp] theorem State.setTimer_eligible (s : State) (t : Timer) (j : SlotId) (v : UnitId) :
    (s.setTimer t).eligible j v = s.eligible j v := (rfl)
@[simp] theorem State.setTimer_compatible (s : State) (t : Timer) (m : Mode) (v : UnitId) :
    (s.setTimer t).compatible m v = s.compatible m v := (rfl)
@[simp] theorem State.setTimer_waitsIn (s : State) (t : Timer) (b : AgentId) (q : List SlotId) :
    (s.setTimer t).waitsIn b q = s.waitsIn b q := (rfl)
@[simp] theorem State.setTimer_waitsOf (s : State) (t : Timer) (b : AgentId) :
    (s.setTimer t).waitsOf b = s.waitsOf b := (rfl)
@[simp] theorem State.setTimer_members (s : State) (t : Timer) (p : PoolId) :
    (s.setTimer t).members p = s.members p := (rfl)
@[simp] theorem State.setTimer_hasEntry (s : State) (t : Timer) (b : AgentId) (j : SlotId) :
    (s.setTimer t).hasEntry b j = s.hasEntry b j := (rfl)
@[simp] theorem State.setTimer_control (s : State) (t : Timer) : (s.setTimer t).control = s.control := (rfl)
@[simp] theorem State.setTimer_ceiling (s : State) (t : Timer) : (s.setTimer t).ceiling = s.ceiling := (rfl)
@[simp] theorem State.setTimer_frozen (s : State) (t : Timer) : (s.setTimer t).frozen = s.frozen := (rfl)
@[simp] theorem State.setTimer_drained (s : State) (t : Timer) : (s.setTimer t).drained = s.drained := (rfl)
@[simp] theorem State.setTimer_detached (s : State) (t : Timer) : (s.setTimer t).detached = s.detached := (rfl)
@[simp] theorem State.setTimer_controlAttention (s : State) (t : Timer) :
    (s.setTimer t).controlAttention = s.controlAttention := (rfl)
@[simp] theorem State.setTimer_supervisor (s : State) (t : Timer) : (s.setTimer t).supervisor = s.supervisor := (rfl)
@[simp] theorem State.setTimer_inReset (s : State) (t : Timer) : (s.setTimer t).inReset = s.inReset := (rfl)
@[simp] theorem State.setTimer_port (s : State) (t : Timer) : (s.setTimer t).port = s.port := (rfl)
@[simp] theorem State.setTimer_pending (s : State) (t : Timer) : (s.setTimer t).pending = s.pending := (rfl)
@[simp] theorem State.setPort_unit (s : State) (p : PortPins) (v : UnitId) : (s.setPort p).unit v = s.unit v := (rfl)
@[simp] theorem State.setPort_pool (s : State) (p : PortPins) (q : PoolId) : (s.setPort p).pool q = s.pool q := (rfl)
@[simp] theorem State.setPort_slot (s : State) (p : PortPins) (j : SlotId) : (s.setPort p).slot j = s.slot j := (rfl)
@[simp] theorem State.setPort_record (s : State) (p : PortPins) (j : SlotId) :
    (s.setPort p).record j = s.record j := (rfl)
@[simp] theorem State.setPort_agent (s : State) (p : PortPins) (b : AgentId) : (s.setPort p).agent b = s.agent b := (rfl)
@[simp] theorem State.setPort_notice (s : State) (p : PortPins) (b : AgentId) :
    (s.setPort p).notice b = s.notice b := (rfl)
@[simp] theorem State.setPort_station (s : State) (p : PortPins) (b : AgentId) :
    (s.setPort p).station b = s.station b := (rfl)
@[simp] theorem State.setPort_owner (s : State) (p : PortPins) (j : SlotId) : (s.setPort p).owner j = s.owner j := (rfl)
@[simp] theorem State.setPort_holding (s : State) (p : PortPins) (j : SlotId) :
    (s.setPort p).holding j = s.holding j := (rfl)
@[simp] theorem State.setPort_isShared (s : State) (p : PortPins) (j : SlotId) :
    (s.setPort p).isShared j = s.isShared j := (rfl)
@[simp] theorem State.setPort_holders (s : State) (p : PortPins) (v : UnitId) :
    (s.setPort p).holders v = s.holders v := (rfl)
@[simp] theorem State.setPort_holderOf (s : State) (p : PortPins) (b : AgentId) (v : UnitId) :
    (s.setPort p).holderOf b v = s.holderOf b v := (rfl)
@[simp] theorem State.setPort_recordCount (s : State) (p : PortPins) (b : AgentId) :
    (s.setPort p).recordCount b = s.recordCount b := (rfl)
@[simp] theorem State.setPort_handle (s : State) (p : PortPins) (j : SlotId) :
    (s.setPort p).handle j = s.handle j := (rfl)
@[simp] theorem State.setPort_upgradePending (s : State) (p : PortPins) (j : SlotId) :
    (s.setPort p).upgradePending j = s.upgradePending j := (rfl)
@[simp] theorem State.setPort_busy (s : State) (p : PortPins) (b : AgentId) : (s.setPort p).busy b = s.busy b := (rfl)
@[simp] theorem State.setPort_isAttached (s : State) (p : PortPins) (b : AgentId) :
    (s.setPort p).isAttached b = s.isAttached b := (rfl)
@[simp] theorem State.setPort_clearance (s : State) (p : PortPins) (b : AgentId) :
    (s.setPort p).clearance b = s.clearance b := (rfl)
@[simp] theorem State.setPort_bandPermits (s : State) (p : PortPins) (b : AgentId) (v : UnitId) :
    (s.setPort p).bandPermits b v = s.bandPermits b v := (rfl)
@[simp] theorem State.setPort_eligible (s : State) (p : PortPins) (j : SlotId) (v : UnitId) :
    (s.setPort p).eligible j v = s.eligible j v := (rfl)
@[simp] theorem State.setPort_compatible (s : State) (p : PortPins) (m : Mode) (v : UnitId) :
    (s.setPort p).compatible m v = s.compatible m v := (rfl)
@[simp] theorem State.setPort_waitsIn (s : State) (p : PortPins) (b : AgentId) (q : List SlotId) :
    (s.setPort p).waitsIn b q = s.waitsIn b q := (rfl)
@[simp] theorem State.setPort_waitsOf (s : State) (p : PortPins) (b : AgentId) :
    (s.setPort p).waitsOf b = s.waitsOf b := (rfl)
@[simp] theorem State.setPort_hasEntry (s : State) (p : PortPins) (b : AgentId) (j : SlotId) :
    (s.setPort p).hasEntry b j = s.hasEntry b j := (rfl)
@[simp] theorem State.setPort_control (s : State) (p : PortPins) : (s.setPort p).control = s.control := (rfl)
@[simp] theorem State.setPort_timer (s : State) (p : PortPins) : (s.setPort p).timer = s.timer := (rfl)
@[simp] theorem State.setPort_ceiling (s : State) (p : PortPins) : (s.setPort p).ceiling = s.ceiling := (rfl)
@[simp] theorem State.setPort_frozen (s : State) (p : PortPins) : (s.setPort p).frozen = s.frozen := (rfl)
@[simp] theorem State.setPort_drained (s : State) (p : PortPins) : (s.setPort p).drained = s.drained := (rfl)
@[simp] theorem State.setPort_detached (s : State) (p : PortPins) : (s.setPort p).detached = s.detached := (rfl)
@[simp] theorem State.setPort_controlAttention (s : State) (p : PortPins) :
    (s.setPort p).controlAttention = s.controlAttention := (rfl)
@[simp] theorem State.setPort_supervisor (s : State) (p : PortPins) : (s.setPort p).supervisor = s.supervisor := (rfl)
@[simp] theorem State.setPort_inReset (s : State) (p : PortPins) : (s.setPort p).inReset = s.inReset := (rfl)
@[simp] theorem State.setPort_pending (s : State) (p : PortPins) : (s.setPort p).pending = s.pending := (rfl)
@[simp] theorem State.quiet_unit (s : State) (v : UnitId) : (s.quiet).unit v = s.unit v := (rfl)
@[simp] theorem State.quiet_pool (s : State) (q : PoolId) : (s.quiet).pool q = s.pool q := (rfl)
@[simp] theorem State.quiet_slot (s : State) (j : SlotId) : (s.quiet).slot j = s.slot j := (rfl)
@[simp] theorem State.quiet_record (s : State) (j : SlotId) : (s.quiet).record j = s.record j := (rfl)
@[simp] theorem State.quiet_agent (s : State) (b : AgentId) : (s.quiet).agent b = s.agent b := (rfl)
@[simp] theorem State.quiet_notice (s : State) (b : AgentId) : (s.quiet).notice b = s.notice b := (rfl)
@[simp] theorem State.quiet_station (s : State) (b : AgentId) : (s.quiet).station b = s.station b := (rfl)
@[simp] theorem State.quiet_owner (s : State) (j : SlotId) : (s.quiet).owner j = s.owner j := (rfl)
@[simp] theorem State.quiet_holding (s : State) (j : SlotId) : (s.quiet).holding j = s.holding j := (rfl)
@[simp] theorem State.quiet_isShared (s : State) (j : SlotId) : (s.quiet).isShared j = s.isShared j := (rfl)
@[simp] theorem State.quiet_holders (s : State) (v : UnitId) : (s.quiet).holders v = s.holders v := (rfl)
@[simp] theorem State.quiet_holderOf (s : State) (b : AgentId) (v : UnitId) :
    (s.quiet).holderOf b v = s.holderOf b v := (rfl)
@[simp] theorem State.quiet_recordCount (s : State) (b : AgentId) : (s.quiet).recordCount b = s.recordCount b := (rfl)
@[simp] theorem State.quiet_handle (s : State) (j : SlotId) : (s.quiet).handle j = s.handle j := (rfl)
@[simp] theorem State.quiet_upgradePending (s : State) (j : SlotId) :
    (s.quiet).upgradePending j = s.upgradePending j := (rfl)
@[simp] theorem State.quiet_busy (s : State) (b : AgentId) : (s.quiet).busy b = s.busy b := (rfl)
@[simp] theorem State.quiet_isAttached (s : State) (b : AgentId) : (s.quiet).isAttached b = s.isAttached b := (rfl)
@[simp] theorem State.quiet_clearance (s : State) (b : AgentId) : (s.quiet).clearance b = s.clearance b := (rfl)
@[simp] theorem State.quiet_bandPermits (s : State) (b : AgentId) (v : UnitId) :
    (s.quiet).bandPermits b v = s.bandPermits b v := (rfl)
@[simp] theorem State.quiet_eligible (s : State) (j : SlotId) (v : UnitId) :
    (s.quiet).eligible j v = s.eligible j v := (rfl)
@[simp] theorem State.quiet_compatible (s : State) (m : Mode) (v : UnitId) :
    (s.quiet).compatible m v = s.compatible m v := (rfl)
@[simp] theorem State.quiet_waitsIn (s : State) (b : AgentId) (q : List SlotId) :
    (s.quiet).waitsIn b q = s.waitsIn b q := (rfl)
@[simp] theorem State.quiet_waitsOf (s : State) (b : AgentId) : (s.quiet).waitsOf b = s.waitsOf b := (rfl)
@[simp] theorem State.quiet_members (s : State) (p : PoolId) : (s.quiet).members p = s.members p := (rfl)
@[simp] theorem State.quiet_hasEntry (s : State) (b : AgentId) (j : SlotId) :
    (s.quiet).hasEntry b j = s.hasEntry b j := (rfl)
@[simp] theorem State.quiet_control (s : State) : (s.quiet).control = s.control := (rfl)
@[simp] theorem State.quiet_timer (s : State) : (s.quiet).timer = s.timer := (rfl)
@[simp] theorem State.quiet_ceiling (s : State) : (s.quiet).ceiling = s.ceiling := (rfl)
@[simp] theorem State.quiet_frozen (s : State) : (s.quiet).frozen = s.frozen := (rfl)
@[simp] theorem State.quiet_drained (s : State) : (s.quiet).drained = s.drained := (rfl)
@[simp] theorem State.quiet_detached (s : State) : (s.quiet).detached = s.detached := (rfl)
@[simp] theorem State.quiet_controlAttention (s : State) : (s.quiet).controlAttention = s.controlAttention := (rfl)
@[simp] theorem State.quiet_supervisor (s : State) : (s.quiet).supervisor = s.supervisor := (rfl)
@[simp] theorem State.quiet_inReset (s : State) : (s.quiet).inReset = s.inReset := (rfl)
@[simp] theorem State.quiet_pending (s : State) : (s.quiet).pending = s.pending := (rfl)
@[simp] theorem State.addDrained_unit (s : State) (u : UnitId) (v : UnitId) : (s.addDrained u).unit v = s.unit v := (rfl)
@[simp] theorem State.addDrained_pool (s : State) (u : UnitId) (q : PoolId) : (s.addDrained u).pool q = s.pool q := (rfl)
@[simp] theorem State.addDrained_slot (s : State) (u : UnitId) (j : SlotId) : (s.addDrained u).slot j = s.slot j := (rfl)
@[simp] theorem State.addDrained_record (s : State) (u : UnitId) (j : SlotId) :
    (s.addDrained u).record j = s.record j := (rfl)
@[simp] theorem State.addDrained_agent (s : State) (u : UnitId) (b : AgentId) :
    (s.addDrained u).agent b = s.agent b := (rfl)
@[simp] theorem State.addDrained_notice (s : State) (u : UnitId) (b : AgentId) :
    (s.addDrained u).notice b = s.notice b := (rfl)
@[simp] theorem State.addDrained_station (s : State) (u : UnitId) (b : AgentId) :
    (s.addDrained u).station b = s.station b := (rfl)
@[simp] theorem State.addDrained_owner (s : State) (u : UnitId) (j : SlotId) :
    (s.addDrained u).owner j = s.owner j := (rfl)
@[simp] theorem State.addDrained_holding (s : State) (u : UnitId) (j : SlotId) :
    (s.addDrained u).holding j = s.holding j := (rfl)
@[simp] theorem State.addDrained_isShared (s : State) (u : UnitId) (j : SlotId) :
    (s.addDrained u).isShared j = s.isShared j := (rfl)
@[simp] theorem State.addDrained_holders (s : State) (u : UnitId) (v : UnitId) :
    (s.addDrained u).holders v = s.holders v := (rfl)
@[simp] theorem State.addDrained_holderOf (s : State) (u : UnitId) (b : AgentId) (v : UnitId) :
    (s.addDrained u).holderOf b v = s.holderOf b v := (rfl)
@[simp] theorem State.addDrained_recordCount (s : State) (u : UnitId) (b : AgentId) :
    (s.addDrained u).recordCount b = s.recordCount b := (rfl)
@[simp] theorem State.addDrained_handle (s : State) (u : UnitId) (j : SlotId) :
    (s.addDrained u).handle j = s.handle j := (rfl)
@[simp] theorem State.addDrained_upgradePending (s : State) (u : UnitId) (j : SlotId) :
    (s.addDrained u).upgradePending j = s.upgradePending j := (rfl)
@[simp] theorem State.addDrained_busy (s : State) (u : UnitId) (b : AgentId) : (s.addDrained u).busy b = s.busy b := (rfl)
@[simp] theorem State.addDrained_isAttached (s : State) (u : UnitId) (b : AgentId) :
    (s.addDrained u).isAttached b = s.isAttached b := (rfl)
@[simp] theorem State.addDrained_clearance (s : State) (u : UnitId) (b : AgentId) :
    (s.addDrained u).clearance b = s.clearance b := (rfl)
@[simp] theorem State.addDrained_bandPermits (s : State) (u : UnitId) (b : AgentId) (v : UnitId) :
    (s.addDrained u).bandPermits b v = s.bandPermits b v := (rfl)
@[simp] theorem State.addDrained_eligible (s : State) (u : UnitId) (j : SlotId) (v : UnitId) :
    (s.addDrained u).eligible j v = s.eligible j v := (rfl)
@[simp] theorem State.addDrained_compatible (s : State) (u : UnitId) (m : Mode) (v : UnitId) :
    (s.addDrained u).compatible m v = s.compatible m v := (rfl)
@[simp] theorem State.addDrained_waitsIn (s : State) (u : UnitId) (b : AgentId) (q : List SlotId) :
    (s.addDrained u).waitsIn b q = s.waitsIn b q := (rfl)
@[simp] theorem State.addDrained_waitsOf (s : State) (u : UnitId) (b : AgentId) :
    (s.addDrained u).waitsOf b = s.waitsOf b := (rfl)
@[simp] theorem State.addDrained_members (s : State) (u : UnitId) (p : PoolId) :
    (s.addDrained u).members p = s.members p := (rfl)
@[simp] theorem State.addDrained_hasEntry (s : State) (u : UnitId) (b : AgentId) (j : SlotId) :
    (s.addDrained u).hasEntry b j = s.hasEntry b j := (rfl)
@[simp] theorem State.addDrained_control (s : State) (u : UnitId) : (s.addDrained u).control = s.control := (rfl)
@[simp] theorem State.addDrained_timer (s : State) (u : UnitId) : (s.addDrained u).timer = s.timer := (rfl)
@[simp] theorem State.addDrained_ceiling (s : State) (u : UnitId) : (s.addDrained u).ceiling = s.ceiling := (rfl)
@[simp] theorem State.addDrained_frozen (s : State) (u : UnitId) : (s.addDrained u).frozen = s.frozen := (rfl)
@[simp] theorem State.addDrained_detached (s : State) (u : UnitId) : (s.addDrained u).detached = s.detached := (rfl)
@[simp] theorem State.addDrained_controlAttention (s : State) (u : UnitId) :
    (s.addDrained u).controlAttention = s.controlAttention := (rfl)
@[simp] theorem State.addDrained_supervisor (s : State) (u : UnitId) : (s.addDrained u).supervisor = s.supervisor := (rfl)
@[simp] theorem State.addDrained_inReset (s : State) (u : UnitId) : (s.addDrained u).inReset = s.inReset := (rfl)
@[simp] theorem State.addDrained_port (s : State) (u : UnitId) : (s.addDrained u).port = s.port := (rfl)
@[simp] theorem State.addDrained_pending (s : State) (u : UnitId) : (s.addDrained u).pending = s.pending := (rfl)
@[simp] theorem State.addDetached_unit (s : State) (a : AgentId) (v : UnitId) :
    (s.addDetached a).unit v = s.unit v := (rfl)
@[simp] theorem State.addDetached_pool (s : State) (a : AgentId) (q : PoolId) :
    (s.addDetached a).pool q = s.pool q := (rfl)
@[simp] theorem State.addDetached_slot (s : State) (a : AgentId) (j : SlotId) :
    (s.addDetached a).slot j = s.slot j := (rfl)
@[simp] theorem State.addDetached_record (s : State) (a : AgentId) (j : SlotId) :
    (s.addDetached a).record j = s.record j := (rfl)
@[simp] theorem State.addDetached_agent (s : State) (a : AgentId) (b : AgentId) :
    (s.addDetached a).agent b = s.agent b := (rfl)
@[simp] theorem State.addDetached_notice (s : State) (a : AgentId) (b : AgentId) :
    (s.addDetached a).notice b = s.notice b := (rfl)
@[simp] theorem State.addDetached_station (s : State) (a : AgentId) (b : AgentId) :
    (s.addDetached a).station b = s.station b := (rfl)
@[simp] theorem State.addDetached_owner (s : State) (a : AgentId) (j : SlotId) :
    (s.addDetached a).owner j = s.owner j := (rfl)
@[simp] theorem State.addDetached_holding (s : State) (a : AgentId) (j : SlotId) :
    (s.addDetached a).holding j = s.holding j := (rfl)
@[simp] theorem State.addDetached_isShared (s : State) (a : AgentId) (j : SlotId) :
    (s.addDetached a).isShared j = s.isShared j := (rfl)
@[simp] theorem State.addDetached_holders (s : State) (a : AgentId) (v : UnitId) :
    (s.addDetached a).holders v = s.holders v := (rfl)
@[simp] theorem State.addDetached_holderOf (s : State) (a : AgentId) (b : AgentId) (v : UnitId) :
    (s.addDetached a).holderOf b v = s.holderOf b v := (rfl)
@[simp] theorem State.addDetached_recordCount (s : State) (a : AgentId) (b : AgentId) :
    (s.addDetached a).recordCount b = s.recordCount b := (rfl)
@[simp] theorem State.addDetached_handle (s : State) (a : AgentId) (j : SlotId) :
    (s.addDetached a).handle j = s.handle j := (rfl)
@[simp] theorem State.addDetached_upgradePending (s : State) (a : AgentId) (j : SlotId) :
    (s.addDetached a).upgradePending j = s.upgradePending j := (rfl)
@[simp] theorem State.addDetached_busy (s : State) (a : AgentId) (b : AgentId) :
    (s.addDetached a).busy b = s.busy b := (rfl)
@[simp] theorem State.addDetached_isAttached (s : State) (a : AgentId) (b : AgentId) :
    (s.addDetached a).isAttached b = s.isAttached b := (rfl)
@[simp] theorem State.addDetached_clearance (s : State) (a : AgentId) (b : AgentId) :
    (s.addDetached a).clearance b = s.clearance b := (rfl)
@[simp] theorem State.addDetached_bandPermits (s : State) (a : AgentId) (b : AgentId) (v : UnitId) :
    (s.addDetached a).bandPermits b v = s.bandPermits b v := (rfl)
@[simp] theorem State.addDetached_eligible (s : State) (a : AgentId) (j : SlotId) (v : UnitId) :
    (s.addDetached a).eligible j v = s.eligible j v := (rfl)
@[simp] theorem State.addDetached_compatible (s : State) (a : AgentId) (m : Mode) (v : UnitId) :
    (s.addDetached a).compatible m v = s.compatible m v := (rfl)
@[simp] theorem State.addDetached_waitsIn (s : State) (a : AgentId) (b : AgentId) (q : List SlotId) :
    (s.addDetached a).waitsIn b q = s.waitsIn b q := (rfl)
@[simp] theorem State.addDetached_waitsOf (s : State) (a : AgentId) (b : AgentId) :
    (s.addDetached a).waitsOf b = s.waitsOf b := (rfl)
@[simp] theorem State.addDetached_members (s : State) (a : AgentId) (p : PoolId) :
    (s.addDetached a).members p = s.members p := (rfl)
@[simp] theorem State.addDetached_hasEntry (s : State) (a : AgentId) (b : AgentId) (j : SlotId) :
    (s.addDetached a).hasEntry b j = s.hasEntry b j := (rfl)
@[simp] theorem State.addDetached_control (s : State) (a : AgentId) : (s.addDetached a).control = s.control := (rfl)
@[simp] theorem State.addDetached_timer (s : State) (a : AgentId) : (s.addDetached a).timer = s.timer := (rfl)
@[simp] theorem State.addDetached_ceiling (s : State) (a : AgentId) : (s.addDetached a).ceiling = s.ceiling := (rfl)
@[simp] theorem State.addDetached_frozen (s : State) (a : AgentId) : (s.addDetached a).frozen = s.frozen := (rfl)
@[simp] theorem State.addDetached_drained (s : State) (a : AgentId) : (s.addDetached a).drained = s.drained := (rfl)
@[simp] theorem State.addDetached_controlAttention (s : State) (a : AgentId) :
    (s.addDetached a).controlAttention = s.controlAttention := (rfl)
@[simp] theorem State.addDetached_supervisor (s : State) (a : AgentId) :
    (s.addDetached a).supervisor = s.supervisor := (rfl)
@[simp] theorem State.addDetached_inReset (s : State) (a : AgentId) : (s.addDetached a).inReset = s.inReset := (rfl)
@[simp] theorem State.addDetached_port (s : State) (a : AgentId) : (s.addDetached a).port = s.port := (rfl)
@[simp] theorem State.addDetached_pending (s : State) (a : AgentId) : (s.addDetached a).pending = s.pending := (rfl)
@[simp] theorem State.writeRecord_unit (s : State) (i : SlotId) (r : Option Record) (v : UnitId) :
    (s.writeRecord i r).unit v = s.unit v := (rfl)
@[simp] theorem State.writeRecord_pool (s : State) (i : SlotId) (r : Option Record) (q : PoolId) :
    (s.writeRecord i r).pool q = s.pool q := (rfl)
@[simp] theorem State.writeRecord_agent (s : State) (i : SlotId) (r : Option Record) (b : AgentId) :
    (s.writeRecord i r).agent b = s.agent b := (rfl)
@[simp] theorem State.writeRecord_notice (s : State) (i : SlotId) (r : Option Record) (b : AgentId) :
    (s.writeRecord i r).notice b = s.notice b := (rfl)
@[simp] theorem State.writeRecord_station (s : State) (i : SlotId) (r : Option Record) (b : AgentId) :
    (s.writeRecord i r).station b = s.station b := (rfl)
@[simp] theorem State.writeRecord_busy (s : State) (i : SlotId) (r : Option Record) (b : AgentId) :
    (s.writeRecord i r).busy b = s.busy b := (rfl)
@[simp] theorem State.writeRecord_isAttached (s : State) (i : SlotId) (r : Option Record) (b : AgentId) :
    (s.writeRecord i r).isAttached b = s.isAttached b := (rfl)
@[simp] theorem State.writeRecord_clearance (s : State) (i : SlotId) (r : Option Record) (b : AgentId) :
    (s.writeRecord i r).clearance b = s.clearance b := (rfl)
@[simp] theorem State.writeRecord_bandPermits (s : State) (i : SlotId) (r : Option Record) (b : AgentId) (v : UnitId) :
    (s.writeRecord i r).bandPermits b v = s.bandPermits b v := (rfl)
@[simp] theorem State.writeRecord_members (s : State) (i : SlotId) (r : Option Record) (p : PoolId) :
    (s.writeRecord i r).members p = s.members p := (rfl)
@[simp] theorem State.writeRecord_control (s : State) (i : SlotId) (r : Option Record) :
    (s.writeRecord i r).control = s.control := (rfl)
@[simp] theorem State.writeRecord_timer (s : State) (i : SlotId) (r : Option Record) :
    (s.writeRecord i r).timer = s.timer := (rfl)
@[simp] theorem State.writeRecord_ceiling (s : State) (i : SlotId) (r : Option Record) :
    (s.writeRecord i r).ceiling = s.ceiling := (rfl)
@[simp] theorem State.writeRecord_frozen (s : State) (i : SlotId) (r : Option Record) :
    (s.writeRecord i r).frozen = s.frozen := (rfl)
@[simp] theorem State.writeRecord_drained (s : State) (i : SlotId) (r : Option Record) :
    (s.writeRecord i r).drained = s.drained := (rfl)
@[simp] theorem State.writeRecord_detached (s : State) (i : SlotId) (r : Option Record) :
    (s.writeRecord i r).detached = s.detached := (rfl)
@[simp] theorem State.writeRecord_controlAttention (s : State) (i : SlotId) (r : Option Record) :
    (s.writeRecord i r).controlAttention = s.controlAttention := (rfl)
@[simp] theorem State.writeRecord_supervisor (s : State) (i : SlotId) (r : Option Record) :
    (s.writeRecord i r).supervisor = s.supervisor := (rfl)
@[simp] theorem State.writeRecord_inReset (s : State) (i : SlotId) (r : Option Record) :
    (s.writeRecord i r).inReset = s.inReset := (rfl)
@[simp] theorem State.writeRecord_port (s : State) (i : SlotId) (r : Option Record) :
    (s.writeRecord i r).port = s.port := (rfl)
@[simp] theorem State.writeRecord_pending (s : State) (i : SlotId) (r : Option Record) :
    (s.writeRecord i r).pending = s.pending := (rfl)
@[simp] theorem State.loadRecord_unit (s : State) (i : SlotId) (r : Option Record) (v : UnitId) :
    (s.loadRecord i r).unit v = s.unit v := (rfl)
@[simp] theorem State.loadRecord_pool (s : State) (i : SlotId) (r : Option Record) (q : PoolId) :
    (s.loadRecord i r).pool q = s.pool q := (rfl)
@[simp] theorem State.loadRecord_agent (s : State) (i : SlotId) (r : Option Record) (b : AgentId) :
    (s.loadRecord i r).agent b = s.agent b := (rfl)
@[simp] theorem State.loadRecord_notice (s : State) (i : SlotId) (r : Option Record) (b : AgentId) :
    (s.loadRecord i r).notice b = s.notice b := (rfl)
@[simp] theorem State.loadRecord_station (s : State) (i : SlotId) (r : Option Record) (b : AgentId) :
    (s.loadRecord i r).station b = s.station b := (rfl)
@[simp] theorem State.loadRecord_busy (s : State) (i : SlotId) (r : Option Record) (b : AgentId) :
    (s.loadRecord i r).busy b = s.busy b := (rfl)
@[simp] theorem State.loadRecord_isAttached (s : State) (i : SlotId) (r : Option Record) (b : AgentId) :
    (s.loadRecord i r).isAttached b = s.isAttached b := (rfl)
@[simp] theorem State.loadRecord_clearance (s : State) (i : SlotId) (r : Option Record) (b : AgentId) :
    (s.loadRecord i r).clearance b = s.clearance b := (rfl)
@[simp] theorem State.loadRecord_bandPermits (s : State) (i : SlotId) (r : Option Record) (b : AgentId) (v : UnitId) :
    (s.loadRecord i r).bandPermits b v = s.bandPermits b v := (rfl)
@[simp] theorem State.loadRecord_members (s : State) (i : SlotId) (r : Option Record) (p : PoolId) :
    (s.loadRecord i r).members p = s.members p := (rfl)
@[simp] theorem State.loadRecord_control (s : State) (i : SlotId) (r : Option Record) :
    (s.loadRecord i r).control = s.control := (rfl)
@[simp] theorem State.loadRecord_ceiling (s : State) (i : SlotId) (r : Option Record) :
    (s.loadRecord i r).ceiling = s.ceiling := (rfl)
@[simp] theorem State.loadRecord_frozen (s : State) (i : SlotId) (r : Option Record) :
    (s.loadRecord i r).frozen = s.frozen := (rfl)
@[simp] theorem State.loadRecord_drained (s : State) (i : SlotId) (r : Option Record) :
    (s.loadRecord i r).drained = s.drained := (rfl)
@[simp] theorem State.loadRecord_detached (s : State) (i : SlotId) (r : Option Record) :
    (s.loadRecord i r).detached = s.detached := (rfl)
@[simp] theorem State.loadRecord_controlAttention (s : State) (i : SlotId) (r : Option Record) :
    (s.loadRecord i r).controlAttention = s.controlAttention := (rfl)
@[simp] theorem State.loadRecord_supervisor (s : State) (i : SlotId) (r : Option Record) :
    (s.loadRecord i r).supervisor = s.supervisor := (rfl)
@[simp] theorem State.loadRecord_inReset (s : State) (i : SlotId) (r : Option Record) :
    (s.loadRecord i r).inReset = s.inReset := (rfl)
@[simp] theorem State.loadRecord_port (s : State) (i : SlotId) (r : Option Record) :
    (s.loadRecord i r).port = s.port := (rfl)
@[simp] theorem State.loadRecord_pending (s : State) (i : SlotId) (r : Option Record) :
    (s.loadRecord i r).pending = s.pending := (rfl)

end Sys2Proof.Machine
end

