-- ==== Sys2Proof/Laws/Ops.lean ====
section
/-! SUPPORT. What each shared operation does to each register, said once; a proof cites these and need not unfold the
operation. -/

namespace Sys2Proof.Machine

/-! ### Posting a notice, and leaving a queue -/

@[simp] theorem State.post_unit (s : State) (k : NoticeKind) (i : SlotId) (v : UnitId) :
    (s.post k i).unit v = s.unit v := by unfold State.post; (repeat' split) <;> rfl
@[simp] theorem State.post_pool (s : State) (k : NoticeKind) (i : SlotId) (q : PoolId) :
    (s.post k i).pool q = s.pool q := by unfold State.post; (repeat' split) <;> rfl
@[simp] theorem State.post_slot (s : State) (k : NoticeKind) (i : SlotId) (j : SlotId) :
    (s.post k i).slot j = s.slot j := by unfold State.post; (repeat' split) <;> rfl
@[simp] theorem State.post_record (s : State) (k : NoticeKind) (i : SlotId) (j : SlotId) :
    (s.post k i).record j = s.record j := by unfold State.post; (repeat' split) <;> rfl
@[simp] theorem State.post_agent (s : State) (k : NoticeKind) (i : SlotId) (b : AgentId) :
    (s.post k i).agent b = s.agent b := by unfold State.post; (repeat' split) <;> rfl
@[simp] theorem State.post_station (s : State) (k : NoticeKind) (i : SlotId) (b : AgentId) :
    (s.post k i).station b = s.station b := by unfold State.post; (repeat' split) <;> rfl
@[simp] theorem State.post_owner (s : State) (k : NoticeKind) (i : SlotId) (j : SlotId) :
    (s.post k i).owner j = s.owner j := by unfold State.post; (repeat' split) <;> rfl
@[simp] theorem State.post_holding (s : State) (k : NoticeKind) (i : SlotId) (j : SlotId) :
    (s.post k i).holding j = s.holding j := by unfold State.post; (repeat' split) <;> rfl
@[simp] theorem State.post_isShared (s : State) (k : NoticeKind) (i : SlotId) (j : SlotId) :
    (s.post k i).isShared j = s.isShared j := by unfold State.post; (repeat' split) <;> rfl
@[simp] theorem State.post_holders (s : State) (k : NoticeKind) (i : SlotId) (v : UnitId) :
    (s.post k i).holders v = s.holders v := by unfold State.post; (repeat' split) <;> rfl
@[simp] theorem State.post_recordCount (s : State) (k : NoticeKind) (i : SlotId) (b : AgentId) :
    (s.post k i).recordCount b = s.recordCount b := by unfold State.post; (repeat' split) <;> rfl
@[simp] theorem State.post_handle (s : State) (k : NoticeKind) (i : SlotId) (j : SlotId) :
    (s.post k i).handle j = s.handle j := by unfold State.post; (repeat' split) <;> rfl
@[simp] theorem State.post_busy (s : State) (k : NoticeKind) (i : SlotId) (b : AgentId) :
    (s.post k i).busy b = s.busy b := by unfold State.post; (repeat' split) <;> rfl
@[simp] theorem State.post_isAttached (s : State) (k : NoticeKind) (i : SlotId) (b : AgentId) :
    (s.post k i).isAttached b = s.isAttached b := by unfold State.post; (repeat' split) <;> rfl
@[simp] theorem State.post_bandPermits (s : State) (k : NoticeKind) (i : SlotId) (b : AgentId) (v : UnitId) :
    (s.post k i).bandPermits b v = s.bandPermits b v := by unfold State.post; (repeat' split) <;> rfl
@[simp] theorem State.post_control (s : State) (k : NoticeKind) (i : SlotId) :
    (s.post k i).control = s.control := by unfold State.post; (repeat' split) <;> rfl
@[simp] theorem State.post_timer (s : State) (k : NoticeKind) (i : SlotId) :
    (s.post k i).timer = s.timer := by unfold State.post; (repeat' split) <;> rfl
@[simp] theorem State.post_ceiling (s : State) (k : NoticeKind) (i : SlotId) :
    (s.post k i).ceiling = s.ceiling := by unfold State.post; (repeat' split) <;> rfl
@[simp] theorem State.post_frozen (s : State) (k : NoticeKind) (i : SlotId) :
    (s.post k i).frozen = s.frozen := by unfold State.post; (repeat' split) <;> rfl
@[simp] theorem State.post_drained (s : State) (k : NoticeKind) (i : SlotId) :
    (s.post k i).drained = s.drained := by unfold State.post; (repeat' split) <;> rfl
@[simp] theorem State.post_detached (s : State) (k : NoticeKind) (i : SlotId) :
    (s.post k i).detached = s.detached := by unfold State.post; (repeat' split) <;> rfl
@[simp] theorem State.post_controlAttention (s : State) (k : NoticeKind) (i : SlotId) :
    (s.post k i).controlAttention = s.controlAttention := by unfold State.post; (repeat' split) <;> rfl
@[simp] theorem State.post_supervisor (s : State) (k : NoticeKind) (i : SlotId) :
    (s.post k i).supervisor = s.supervisor := by unfold State.post; (repeat' split) <;> rfl
@[simp] theorem State.post_inReset (s : State) (k : NoticeKind) (i : SlotId) :
    (s.post k i).inReset = s.inReset := by unfold State.post; (repeat' split) <;> rfl
@[simp] theorem State.post_port (s : State) (k : NoticeKind) (i : SlotId) :
    (s.post k i).port = s.port := by unfold State.post; (repeat' split) <;> rfl
@[simp] theorem State.post_pending (s : State) (k : NoticeKind) (i : SlotId) :
    (s.post k i).pending = s.pending := by unfold State.post; (repeat' split) <;> rfl

/-- A post puts its entry into the queue of the record's ATTACHED agent, and changes no other queue (R123, R124). -/
theorem State.post_notice (s : State) (k : NoticeKind) (i : SlotId) (b : AgentId) :
    (s.post k i).notice b =
      match s.record i with
      | none => s.notice b
      | some r =>
        if b = r.agent ∧ s.isAttached r.agent = true then
          { s.notice b with entries := postEntry (s.notice b).entries ⟨k, s.handle i, r.target⟩ }
        else s.notice b := by
  unfold State.post
  cases s.record i with
  | none => rfl
  | some r =>
    by_cases ha : s.isAttached r.agent = true
    · by_cases hb : b = r.agent
      · subst hb; simp [ha]
      · simp [ha, hb, State.notice_setNotice]
    · simp [ha]

@[simp] theorem State.dequeue_slot (s : State) (t : Target) (i : SlotId) (j : SlotId) :
    (s.dequeue t i).slot j = s.slot j := by cases t <;> rfl
@[simp] theorem State.dequeue_record (s : State) (t : Target) (i : SlotId) (j : SlotId) :
    (s.dequeue t i).record j = s.record j := by cases t <;> rfl
@[simp] theorem State.dequeue_agent (s : State) (t : Target) (i : SlotId) (b : AgentId) :
    (s.dequeue t i).agent b = s.agent b := by cases t <;> rfl
@[simp] theorem State.dequeue_notice (s : State) (t : Target) (i : SlotId) (b : AgentId) :
    (s.dequeue t i).notice b = s.notice b := by cases t <;> rfl
@[simp] theorem State.dequeue_station (s : State) (t : Target) (i : SlotId) (b : AgentId) :
    (s.dequeue t i).station b = s.station b := by cases t <;> rfl
@[simp] theorem State.dequeue_owner (s : State) (t : Target) (i : SlotId) (j : SlotId) :
    (s.dequeue t i).owner j = s.owner j := by cases t <;> rfl
@[simp] theorem State.dequeue_holding (s : State) (t : Target) (i : SlotId) (j : SlotId) :
    (s.dequeue t i).holding j = s.holding j := by cases t <;> rfl
@[simp] theorem State.dequeue_isShared (s : State) (t : Target) (i : SlotId) (j : SlotId) :
    (s.dequeue t i).isShared j = s.isShared j := by cases t <;> rfl
@[simp] theorem State.dequeue_holders (s : State) (t : Target) (i : SlotId) (v : UnitId) :
    (s.dequeue t i).holders v = s.holders v := by cases t <;> rfl
@[simp] theorem State.dequeue_recordCount (s : State) (t : Target) (i : SlotId) (b : AgentId) :
    (s.dequeue t i).recordCount b = s.recordCount b := by cases t <;> rfl
@[simp] theorem State.dequeue_handle (s : State) (t : Target) (i : SlotId) (j : SlotId) :
    (s.dequeue t i).handle j = s.handle j := by cases t <;> rfl
@[simp] theorem State.dequeue_busy (s : State) (t : Target) (i : SlotId) (b : AgentId) :
    (s.dequeue t i).busy b = s.busy b := by cases t <;> rfl
@[simp] theorem State.dequeue_isAttached (s : State) (t : Target) (i : SlotId) (b : AgentId) :
    (s.dequeue t i).isAttached b = s.isAttached b := by cases t <;> rfl
@[simp] theorem State.dequeue_bandPermits (s : State) (t : Target) (i : SlotId) (b : AgentId) (v : UnitId) :
    (s.dequeue t i).bandPermits b v = s.bandPermits b v := by cases t <;> rfl
@[simp] theorem State.dequeue_control (s : State) (t : Target) (i : SlotId) :
    (s.dequeue t i).control = s.control := by cases t <;> rfl
@[simp] theorem State.dequeue_timer (s : State) (t : Target) (i : SlotId) :
    (s.dequeue t i).timer = s.timer := by cases t <;> rfl
@[simp] theorem State.dequeue_ceiling (s : State) (t : Target) (i : SlotId) :
    (s.dequeue t i).ceiling = s.ceiling := by cases t <;> rfl
@[simp] theorem State.dequeue_frozen (s : State) (t : Target) (i : SlotId) :
    (s.dequeue t i).frozen = s.frozen := by cases t <;> rfl
@[simp] theorem State.dequeue_drained (s : State) (t : Target) (i : SlotId) :
    (s.dequeue t i).drained = s.drained := by cases t <;> rfl
@[simp] theorem State.dequeue_detached (s : State) (t : Target) (i : SlotId) :
    (s.dequeue t i).detached = s.detached := by cases t <;> rfl
@[simp] theorem State.dequeue_controlAttention (s : State) (t : Target) (i : SlotId) :
    (s.dequeue t i).controlAttention = s.controlAttention := by cases t <;> rfl
@[simp] theorem State.dequeue_supervisor (s : State) (t : Target) (i : SlotId) :
    (s.dequeue t i).supervisor = s.supervisor := by cases t <;> rfl
@[simp] theorem State.dequeue_inReset (s : State) (t : Target) (i : SlotId) :
    (s.dequeue t i).inReset = s.inReset := by cases t <;> rfl
@[simp] theorem State.dequeue_port (s : State) (t : Target) (i : SlotId) :
    (s.dequeue t i).port = s.port := by cases t <;> rfl
@[simp] theorem State.dequeue_pending (s : State) (t : Target) (i : SlotId) :
    (s.dequeue t i).pending = s.pending := by cases t <;> rfl

/-- The queue of the target loses the slot; nothing else of any unit changes. -/
theorem State.dequeue_unit (s : State) (t : Target) (i : SlotId) (v : UnitId) :
    (s.dequeue t i).unit v =
      if t = .unit v then { s.unit v with queue := (s.unit v).queue.filter (· ≠ i) } else s.unit v := by
  cases t with
  | pool p => simp [State.dequeue]
  | unit u =>
    by_cases h : u = v
    · subst h; simp [State.dequeue]
    · simp [State.dequeue, State.unit_setUnit, h, Ne.symm h]

theorem State.dequeue_pool (s : State) (t : Target) (i : SlotId) (q : PoolId) :
    (s.dequeue t i).pool q =
      if t = .pool q then { s.pool q with queue := (s.pool q).queue.filter (· ≠ i) } else s.pool q := by
  cases t with
  | unit u => simp [State.dequeue]
  | pool p =>
    by_cases h : p = q
    · subst h; simp [State.dequeue]
    · simp [State.dequeue, State.pool_setPool, h, Ne.symm h]

/-! ### The mark -/

@[simp] theorem State.clearMark_pool (s : State) (u : UnitId) (q : PoolId) : (s.clearMark u).pool q = s.pool q := (rfl)
@[simp] theorem State.clearMark_slot (s : State) (u : UnitId) (j : SlotId) : (s.clearMark u).slot j = s.slot j := (rfl)
@[simp] theorem State.clearMark_record (s : State) (u : UnitId) (j : SlotId) :
    (s.clearMark u).record j = s.record j := (rfl)
@[simp] theorem State.clearMark_agent (s : State) (u : UnitId) (b : AgentId) :
    (s.clearMark u).agent b = s.agent b := (rfl)
@[simp] theorem State.clearMark_notice (s : State) (u : UnitId) (b : AgentId) :
    (s.clearMark u).notice b = s.notice b := (rfl)
@[simp] theorem State.clearMark_station (s : State) (u : UnitId) (b : AgentId) :
    (s.clearMark u).station b = s.station b := (rfl)
@[simp] theorem State.clearMark_owner (s : State) (u : UnitId) (j : SlotId) :
    (s.clearMark u).owner j = s.owner j := (rfl)
@[simp] theorem State.clearMark_holding (s : State) (u : UnitId) (j : SlotId) :
    (s.clearMark u).holding j = s.holding j := (rfl)
@[simp] theorem State.clearMark_isShared (s : State) (u : UnitId) (j : SlotId) :
    (s.clearMark u).isShared j = s.isShared j := (rfl)
@[simp] theorem State.clearMark_holders (s : State) (u : UnitId) (v : UnitId) :
    (s.clearMark u).holders v = s.holders v := (rfl)
@[simp] theorem State.clearMark_recordCount (s : State) (u : UnitId) (b : AgentId) :
    (s.clearMark u).recordCount b = s.recordCount b := (rfl)
@[simp] theorem State.clearMark_handle (s : State) (u : UnitId) (j : SlotId) :
    (s.clearMark u).handle j = s.handle j := (rfl)
@[simp] theorem State.clearMark_busy (s : State) (u : UnitId) (b : AgentId) : (s.clearMark u).busy b = s.busy b := (rfl)
@[simp] theorem State.clearMark_isAttached (s : State) (u : UnitId) (b : AgentId) :
    (s.clearMark u).isAttached b = s.isAttached b := (rfl)
@[simp] theorem State.clearMark_bandPermits (s : State) (u : UnitId) (b : AgentId) (v : UnitId) :
    (s.clearMark u).bandPermits b v = s.bandPermits b v := (rfl)
@[simp] theorem State.clearMark_control (s : State) (u : UnitId) : (s.clearMark u).control = s.control := (rfl)
@[simp] theorem State.clearMark_timer (s : State) (u : UnitId) : (s.clearMark u).timer = s.timer := (rfl)
@[simp] theorem State.clearMark_ceiling (s : State) (u : UnitId) : (s.clearMark u).ceiling = s.ceiling := (rfl)
@[simp] theorem State.clearMark_frozen (s : State) (u : UnitId) : (s.clearMark u).frozen = s.frozen := (rfl)
@[simp] theorem State.clearMark_drained (s : State) (u : UnitId) : (s.clearMark u).drained = s.drained := (rfl)
@[simp] theorem State.clearMark_detached (s : State) (u : UnitId) : (s.clearMark u).detached = s.detached := (rfl)
@[simp] theorem State.clearMark_controlAttention (s : State) (u : UnitId) :
    (s.clearMark u).controlAttention = s.controlAttention := (rfl)
@[simp] theorem State.clearMark_supervisor (s : State) (u : UnitId) : (s.clearMark u).supervisor = s.supervisor := (rfl)
@[simp] theorem State.clearMark_inReset (s : State) (u : UnitId) : (s.clearMark u).inReset = s.inReset := (rfl)
@[simp] theorem State.clearMark_port (s : State) (u : UnitId) : (s.clearMark u).port = s.port := (rfl)
@[simp] theorem State.clearMark_pending (s : State) (u : UnitId) : (s.clearMark u).pending = s.pending := (rfl)

theorem State.clearMark_unit (s : State) (u v : UnitId) :
    (s.clearMark u).unit v = if v = u then { s.unit v with mark := none } else s.unit v := by
  unfold State.clearMark; rw [State.unit_setUnit]; split
  · next h => rw [h]
  · rfl

@[simp] theorem State.clearMarkOf_pool (s : State) (u : UnitId) (i : SlotId) (q : PoolId) :
    (s.clearMarkOf u i).pool q = s.pool q := by unfold State.clearMarkOf; split <;> rfl
@[simp] theorem State.clearMarkOf_slot (s : State) (u : UnitId) (i : SlotId) (j : SlotId) :
    (s.clearMarkOf u i).slot j = s.slot j := by unfold State.clearMarkOf; split <;> rfl
@[simp] theorem State.clearMarkOf_record (s : State) (u : UnitId) (i : SlotId) (j : SlotId) :
    (s.clearMarkOf u i).record j = s.record j := by unfold State.clearMarkOf; split <;> rfl
@[simp] theorem State.clearMarkOf_agent (s : State) (u : UnitId) (i : SlotId) (b : AgentId) :
    (s.clearMarkOf u i).agent b = s.agent b := by unfold State.clearMarkOf; split <;> rfl
@[simp] theorem State.clearMarkOf_notice (s : State) (u : UnitId) (i : SlotId) (b : AgentId) :
    (s.clearMarkOf u i).notice b = s.notice b := by unfold State.clearMarkOf; split <;> rfl
@[simp] theorem State.clearMarkOf_station (s : State) (u : UnitId) (i : SlotId) (b : AgentId) :
    (s.clearMarkOf u i).station b = s.station b := by unfold State.clearMarkOf; split <;> rfl
@[simp] theorem State.clearMarkOf_owner (s : State) (u : UnitId) (i : SlotId) (j : SlotId) :
    (s.clearMarkOf u i).owner j = s.owner j := by unfold State.clearMarkOf; split <;> rfl
@[simp] theorem State.clearMarkOf_holding (s : State) (u : UnitId) (i : SlotId) (j : SlotId) :
    (s.clearMarkOf u i).holding j = s.holding j := by unfold State.clearMarkOf; split <;> rfl
@[simp] theorem State.clearMarkOf_isShared (s : State) (u : UnitId) (i : SlotId) (j : SlotId) :
    (s.clearMarkOf u i).isShared j = s.isShared j := by unfold State.clearMarkOf; split <;> rfl
@[simp] theorem State.clearMarkOf_holders (s : State) (u : UnitId) (i : SlotId) (v : UnitId) :
    (s.clearMarkOf u i).holders v = s.holders v := by unfold State.clearMarkOf; split <;> rfl
@[simp] theorem State.clearMarkOf_recordCount (s : State) (u : UnitId) (i : SlotId) (b : AgentId) :
    (s.clearMarkOf u i).recordCount b = s.recordCount b := by unfold State.clearMarkOf; split <;> rfl
@[simp] theorem State.clearMarkOf_handle (s : State) (u : UnitId) (i : SlotId) (j : SlotId) :
    (s.clearMarkOf u i).handle j = s.handle j := by unfold State.clearMarkOf; split <;> rfl
@[simp] theorem State.clearMarkOf_busy (s : State) (u : UnitId) (i : SlotId) (b : AgentId) :
    (s.clearMarkOf u i).busy b = s.busy b := by unfold State.clearMarkOf; split <;> rfl
@[simp] theorem State.clearMarkOf_isAttached (s : State) (u : UnitId) (i : SlotId) (b : AgentId) :
    (s.clearMarkOf u i).isAttached b = s.isAttached b := by unfold State.clearMarkOf; split <;> rfl
@[simp] theorem State.clearMarkOf_bandPermits (s : State) (u : UnitId) (i : SlotId) (b : AgentId) (v : UnitId) :
    (s.clearMarkOf u i).bandPermits b v = s.bandPermits b v := by unfold State.clearMarkOf; split <;> rfl
@[simp] theorem State.clearMarkOf_control (s : State) (u : UnitId) (i : SlotId) :
    (s.clearMarkOf u i).control = s.control := by unfold State.clearMarkOf; split <;> rfl
@[simp] theorem State.clearMarkOf_timer (s : State) (u : UnitId) (i : SlotId) :
    (s.clearMarkOf u i).timer = s.timer := by unfold State.clearMarkOf; split <;> rfl
@[simp] theorem State.clearMarkOf_ceiling (s : State) (u : UnitId) (i : SlotId) :
    (s.clearMarkOf u i).ceiling = s.ceiling := by unfold State.clearMarkOf; split <;> rfl
@[simp] theorem State.clearMarkOf_frozen (s : State) (u : UnitId) (i : SlotId) :
    (s.clearMarkOf u i).frozen = s.frozen := by unfold State.clearMarkOf; split <;> rfl
@[simp] theorem State.clearMarkOf_drained (s : State) (u : UnitId) (i : SlotId) :
    (s.clearMarkOf u i).drained = s.drained := by unfold State.clearMarkOf; split <;> rfl
@[simp] theorem State.clearMarkOf_detached (s : State) (u : UnitId) (i : SlotId) :
    (s.clearMarkOf u i).detached = s.detached := by unfold State.clearMarkOf; split <;> rfl
@[simp] theorem State.clearMarkOf_controlAttention (s : State) (u : UnitId) (i : SlotId) :
    (s.clearMarkOf u i).controlAttention = s.controlAttention := by unfold State.clearMarkOf; split <;> rfl
@[simp] theorem State.clearMarkOf_supervisor (s : State) (u : UnitId) (i : SlotId) :
    (s.clearMarkOf u i).supervisor = s.supervisor := by unfold State.clearMarkOf; split <;> rfl
@[simp] theorem State.clearMarkOf_inReset (s : State) (u : UnitId) (i : SlotId) :
    (s.clearMarkOf u i).inReset = s.inReset := by unfold State.clearMarkOf; split <;> rfl
@[simp] theorem State.clearMarkOf_port (s : State) (u : UnitId) (i : SlotId) :
    (s.clearMarkOf u i).port = s.port := by unfold State.clearMarkOf; split <;> rfl
@[simp] theorem State.clearMarkOf_pending (s : State) (u : UnitId) (i : SlotId) :
    (s.clearMarkOf u i).pending = s.pending := by unfold State.clearMarkOf; split <;> rfl

/-- A mark that names the slot is cleared on that unit; nothing else of any unit changes. -/
theorem State.clearMarkOf_unit (s : State) (u : UnitId) (i : SlotId) (v : UnitId) :
    (s.clearMarkOf u i).unit v =
      if v = u ∧ (s.unit v).mark = some i then { s.unit v with mark := none } else s.unit v := by
  unfold State.clearMarkOf
  by_cases hv : v = u
  · subst hv; split
    · next h => simp [State.clearMark_unit, h]
    · next h => simp [h]
  · split
    · simp [State.clearMark_unit, hv]
    · simp [hv]

@[simp] theorem State.setMode_unit (s : State) (i : SlotId) (m : Mode) (v : UnitId) :
    (s.setMode i m).unit v = s.unit v := by unfold State.setMode; split <;> rfl
@[simp] theorem State.setMode_pool (s : State) (i : SlotId) (m : Mode) (q : PoolId) :
    (s.setMode i m).pool q = s.pool q := by unfold State.setMode; split <;> rfl
@[simp] theorem State.setMode_agent (s : State) (i : SlotId) (m : Mode) (b : AgentId) :
    (s.setMode i m).agent b = s.agent b := by unfold State.setMode; split <;> rfl
@[simp] theorem State.setMode_notice (s : State) (i : SlotId) (m : Mode) (b : AgentId) :
    (s.setMode i m).notice b = s.notice b := by unfold State.setMode; split <;> rfl
@[simp] theorem State.setMode_station (s : State) (i : SlotId) (m : Mode) (b : AgentId) :
    (s.setMode i m).station b = s.station b := by unfold State.setMode; split <;> rfl
@[simp] theorem State.setMode_busy (s : State) (i : SlotId) (m : Mode) (b : AgentId) :
    (s.setMode i m).busy b = s.busy b := by unfold State.setMode; split <;> rfl
@[simp] theorem State.setMode_isAttached (s : State) (i : SlotId) (m : Mode) (b : AgentId) :
    (s.setMode i m).isAttached b = s.isAttached b := by unfold State.setMode; split <;> rfl
@[simp] theorem State.setMode_bandPermits (s : State) (i : SlotId) (m : Mode) (b : AgentId) (v : UnitId) :
    (s.setMode i m).bandPermits b v = s.bandPermits b v := by unfold State.setMode; split <;> rfl
@[simp] theorem State.setMode_control (s : State) (i : SlotId) (m : Mode) :
    (s.setMode i m).control = s.control := by unfold State.setMode; split <;> rfl
@[simp] theorem State.setMode_timer (s : State) (i : SlotId) (m : Mode) :
    (s.setMode i m).timer = s.timer := by unfold State.setMode; split <;> rfl
@[simp] theorem State.setMode_ceiling (s : State) (i : SlotId) (m : Mode) :
    (s.setMode i m).ceiling = s.ceiling := by unfold State.setMode; split <;> rfl
@[simp] theorem State.setMode_frozen (s : State) (i : SlotId) (m : Mode) :
    (s.setMode i m).frozen = s.frozen := by unfold State.setMode; split <;> rfl
@[simp] theorem State.setMode_drained (s : State) (i : SlotId) (m : Mode) :
    (s.setMode i m).drained = s.drained := by unfold State.setMode; split <;> rfl
@[simp] theorem State.setMode_detached (s : State) (i : SlotId) (m : Mode) :
    (s.setMode i m).detached = s.detached := by unfold State.setMode; split <;> rfl
@[simp] theorem State.setMode_controlAttention (s : State) (i : SlotId) (m : Mode) :
    (s.setMode i m).controlAttention = s.controlAttention := by unfold State.setMode; split <;> rfl
@[simp] theorem State.setMode_supervisor (s : State) (i : SlotId) (m : Mode) :
    (s.setMode i m).supervisor = s.supervisor := by unfold State.setMode; split <;> rfl
@[simp] theorem State.setMode_inReset (s : State) (i : SlotId) (m : Mode) :
    (s.setMode i m).inReset = s.inReset := by unfold State.setMode; split <;> rfl
@[simp] theorem State.setMode_port (s : State) (i : SlotId) (m : Mode) :
    (s.setMode i m).port = s.port := by unfold State.setMode; split <;> rfl
@[simp] theorem State.setMode_pending (s : State) (i : SlotId) (m : Mode) :
    (s.setMode i m).pending = s.pending := by unfold State.setMode; split <;> rfl

/-- The record in the slot takes the mode; every other record is unchanged. -/
theorem State.setMode_record (s : State) (i : SlotId) (m : Mode) (j : SlotId) :
    (s.setMode i m).record j = if j = i then (s.record j).map ({ · with mode := m }) else s.record j := by
  unfold State.setMode
  cases h : s.record i with
  | none => by_cases hj : j = i
            · subst hj; simp [h]
            · simp [hj]
  | some r => by_cases hj : j = i
              · subst hj; simp [State.record_writeRecord, h]
              · simp [State.record_writeRecord, hj]

@[simp] theorem State.setMode_serial (s : State) (i : SlotId) (m : Mode) (j : SlotId) :
    ((s.setMode i m).slot j).serial = (s.slot j).serial := by
  unfold State.setMode; split
  · rfl
  · simp

/-! ### A grant -/

/-- What a grant of unit u does to the WAITING record in slot i: it becomes a LEASE HELD at depth 1 with its effective
duration (R74, R78); every other record is unchanged. -/
theorem State.grant_record (s : State) (own : Option SlotId) (u : UnitId) (i : SlotId) (r : Record) (t : Target)
    (d : Nat) (c : Option Nat) (found : s.record i = some r) (waits : r.standing = .waiting t d c) (j : SlotId) :
    (s.grant own u i).record j =
      if j = i then some { r with standing := .held u 1 (effectiveDuration d (s.unit u).config.limit) }
      else s.record j := by
  unfold State.grant
  rw [found]; dsimp only; rw [waits]; dsimp only
  split <;> simp [State.record_loadRecord]

theorem State.grant_unit (s : State) (own : Option SlotId) (u : UnitId) (i : SlotId) (r : Record) (t : Target)
    (d : Nat) (c : Option Nat) (found : s.record i = some r) (waits : r.standing = .waiting t d c) (v : UnitId) :
    (s.grant own u i).unit v =
      if t = .unit v then { s.unit v with queue := (s.unit v).queue.filter (· ≠ i) } else s.unit v := by
  unfold State.grant
  rw [found]; dsimp only; rw [waits]; dsimp only
  split <;> simp [State.dequeue_unit]

theorem State.grant_pool (s : State) (own : Option SlotId) (u : UnitId) (i : SlotId) (r : Record) (t : Target)
    (d : Nat) (c : Option Nat) (found : s.record i = some r) (waits : r.standing = .waiting t d c) (q : PoolId) :
    (s.grant own u i).pool q =
      if t = .pool q then { s.pool q with queue := (s.pool q).queue.filter (· ≠ i) } else s.pool q := by
  unfold State.grant
  rw [found]; dsimp only; rw [waits]; dsimp only
  split <;> simp [State.dequeue_pool]

/-- The grant is posted to the record's agent, unless it is the calling command's own record. -/
theorem State.grant_notice (s : State) (own : Option SlotId) (u : UnitId) (i : SlotId) (r : Record) (t : Target)
    (d : Nat) (c : Option Nat) (found : s.record i = some r) (waits : r.standing = .waiting t d c) (b : AgentId) :
    (s.grant own u i).notice b =
      if own ≠ some i ∧ b = r.agent ∧ s.isAttached r.agent = true then
        { s.notice b with entries := postEntry (s.notice b).entries ⟨.granted, s.handle i, .unit u⟩ }
      else s.notice b := by
  unfold State.grant
  rw [found]; dsimp only; rw [waits]; dsimp only
  split
  · next h => simp [h]
  · next h =>
    simp [State.post_notice, State.record_loadRecord, h, Record.target, Standing.claim, Claim.target]

theorem State.grant_timer (s : State) (own : Option SlotId) (u : UnitId) (i : SlotId) (r : Record) (t : Target)
    (d : Nat) (c : Option Nat) (found : s.record i = some r) (waits : r.standing = .waiting t d c) :
    (s.grant own u i).timer = s.timer.spoil i := by
  unfold State.grant
  rw [found]; dsimp only; rw [waits]; dsimp only
  split <;> simp

@[simp] theorem State.grant_serial (s : State) (own : Option SlotId) (u : UnitId) (i j : SlotId) :
    ((s.grant own u i).slot j).serial = (s.slot j).serial := by
  unfold State.grant
  (repeat' split) <;> simp

@[simp] theorem State.grant_agent (s : State) (own : Option SlotId) (u : UnitId) (i : SlotId) (b : AgentId) :
    (s.grant own u i).agent b = s.agent b := by
  unfold State.grant; (repeat' split) <;> simp
@[simp] theorem State.grant_station (s : State) (own : Option SlotId) (u : UnitId) (i : SlotId) (b : AgentId) :
    (s.grant own u i).station b = s.station b := by
  unfold State.grant; (repeat' split) <;> simp
@[simp] theorem State.grant_busy (s : State) (own : Option SlotId) (u : UnitId) (i : SlotId) (b : AgentId) :
    (s.grant own u i).busy b = s.busy b := by
  unfold State.grant; (repeat' split) <;> simp
@[simp] theorem State.grant_isAttached (s : State) (own : Option SlotId) (u : UnitId) (i : SlotId) (b : AgentId) :
    (s.grant own u i).isAttached b = s.isAttached b := by
  unfold State.grant; (repeat' split) <;> simp
@[simp] theorem State.grant_bandPermits (s : State) (own : Option SlotId) (u : UnitId) (i : SlotId) (b : AgentId) (v : UnitId) :
    (s.grant own u i).bandPermits b v = s.bandPermits b v := by
 
  unfold State.grant; (repeat' split) <;> simp
@[simp] theorem State.grant_control (s : State) (own : Option SlotId) (u : UnitId) (i : SlotId) :
    (s.grant own u i).control = s.control := by
  unfold State.grant; (repeat' split) <;> simp
@[simp] theorem State.grant_ceiling (s : State) (own : Option SlotId) (u : UnitId) (i : SlotId) :
    (s.grant own u i).ceiling = s.ceiling := by
  unfold State.grant; (repeat' split) <;> simp
@[simp] theorem State.grant_frozen (s : State) (own : Option SlotId) (u : UnitId) (i : SlotId) :
    (s.grant own u i).frozen = s.frozen := by
  unfold State.grant; (repeat' split) <;> simp
@[simp] theorem State.grant_drained (s : State) (own : Option SlotId) (u : UnitId) (i : SlotId) :
    (s.grant own u i).drained = s.drained := by
  unfold State.grant; (repeat' split) <;> simp
@[simp] theorem State.grant_detached (s : State) (own : Option SlotId) (u : UnitId) (i : SlotId) :
    (s.grant own u i).detached = s.detached := by
  unfold State.grant; (repeat' split) <;> simp
@[simp] theorem State.grant_controlAttention (s : State) (own : Option SlotId) (u : UnitId) (i : SlotId) :
    (s.grant own u i).controlAttention = s.controlAttention := by
  unfold State.grant; (repeat' split) <;> simp
@[simp] theorem State.grant_supervisor (s : State) (own : Option SlotId) (u : UnitId) (i : SlotId) :
    (s.grant own u i).supervisor = s.supervisor := by
  unfold State.grant; (repeat' split) <;> simp
@[simp] theorem State.grant_inReset (s : State) (own : Option SlotId) (u : UnitId) (i : SlotId) :
    (s.grant own u i).inReset = s.inReset := by
  unfold State.grant; (repeat' split) <;> simp
@[simp] theorem State.grant_port (s : State) (own : Option SlotId) (u : UnitId) (i : SlotId) :
    (s.grant own u i).port = s.port := by
  unfold State.grant; (repeat' split) <;> simp
@[simp] theorem State.grant_pending (s : State) (own : Option SlotId) (u : UnitId) (i : SlotId) :
    (s.grant own u i).pending = s.pending := by
  unfold State.grant; (repeat' split) <;> simp

/-! ### Departures -/

@[simp] theorem State.withdrawEntry_unit (s : State) (a : AgentId) (i : SlotId) (v : UnitId) :
    (s.withdrawEntry a i).unit v = s.unit v := (rfl)
@[simp] theorem State.withdrawEntry_pool (s : State) (a : AgentId) (i : SlotId) (q : PoolId) :
    (s.withdrawEntry a i).pool q = s.pool q := (rfl)
@[simp] theorem State.withdrawEntry_slot (s : State) (a : AgentId) (i : SlotId) (j : SlotId) :
    (s.withdrawEntry a i).slot j = s.slot j := (rfl)
@[simp] theorem State.withdrawEntry_record (s : State) (a : AgentId) (i : SlotId) (j : SlotId) :
    (s.withdrawEntry a i).record j = s.record j := (rfl)
@[simp] theorem State.withdrawEntry_agent (s : State) (a : AgentId) (i : SlotId) (b : AgentId) :
    (s.withdrawEntry a i).agent b = s.agent b := (rfl)
@[simp] theorem State.withdrawEntry_station (s : State) (a : AgentId) (i : SlotId) (b : AgentId) :
    (s.withdrawEntry a i).station b = s.station b := (rfl)
@[simp] theorem State.withdrawEntry_owner (s : State) (a : AgentId) (i : SlotId) (j : SlotId) :
    (s.withdrawEntry a i).owner j = s.owner j := (rfl)
@[simp] theorem State.withdrawEntry_holding (s : State) (a : AgentId) (i : SlotId) (j : SlotId) :
    (s.withdrawEntry a i).holding j = s.holding j := (rfl)
@[simp] theorem State.withdrawEntry_isShared (s : State) (a : AgentId) (i : SlotId) (j : SlotId) :
    (s.withdrawEntry a i).isShared j = s.isShared j := (rfl)
@[simp] theorem State.withdrawEntry_holders (s : State) (a : AgentId) (i : SlotId) (v : UnitId) :
    (s.withdrawEntry a i).holders v = s.holders v := (rfl)
@[simp] theorem State.withdrawEntry_recordCount (s : State) (a : AgentId) (i : SlotId) (b : AgentId) :
    (s.withdrawEntry a i).recordCount b = s.recordCount b := (rfl)
@[simp] theorem State.withdrawEntry_handle (s : State) (a : AgentId) (i : SlotId) (j : SlotId) :
    (s.withdrawEntry a i).handle j = s.handle j := (rfl)
@[simp] theorem State.withdrawEntry_busy (s : State) (a : AgentId) (i : SlotId) (b : AgentId) :
    (s.withdrawEntry a i).busy b = s.busy b := (rfl)
@[simp] theorem State.withdrawEntry_isAttached (s : State) (a : AgentId) (i : SlotId) (b : AgentId) :
    (s.withdrawEntry a i).isAttached b = s.isAttached b := (rfl)
@[simp] theorem State.withdrawEntry_bandPermits (s : State) (a : AgentId) (i : SlotId) (b : AgentId) (v : UnitId) :
    (s.withdrawEntry a i).bandPermits b v = s.bandPermits b v := (rfl)
@[simp] theorem State.withdrawEntry_control (s : State) (a : AgentId) (i : SlotId) :
    (s.withdrawEntry a i).control = s.control := (rfl)
@[simp] theorem State.withdrawEntry_timer (s : State) (a : AgentId) (i : SlotId) :
    (s.withdrawEntry a i).timer = s.timer := (rfl)
@[simp] theorem State.withdrawEntry_ceiling (s : State) (a : AgentId) (i : SlotId) :
    (s.withdrawEntry a i).ceiling = s.ceiling := (rfl)
@[simp] theorem State.withdrawEntry_frozen (s : State) (a : AgentId) (i : SlotId) :
    (s.withdrawEntry a i).frozen = s.frozen := (rfl)
@[simp] theorem State.withdrawEntry_drained (s : State) (a : AgentId) (i : SlotId) :
    (s.withdrawEntry a i).drained = s.drained := (rfl)
@[simp] theorem State.withdrawEntry_detached (s : State) (a : AgentId) (i : SlotId) :
    (s.withdrawEntry a i).detached = s.detached := (rfl)
@[simp] theorem State.withdrawEntry_controlAttention (s : State) (a : AgentId) (i : SlotId) :
    (s.withdrawEntry a i).controlAttention = s.controlAttention := (rfl)
@[simp] theorem State.withdrawEntry_supervisor (s : State) (a : AgentId) (i : SlotId) :
    (s.withdrawEntry a i).supervisor = s.supervisor := (rfl)
@[simp] theorem State.withdrawEntry_inReset (s : State) (a : AgentId) (i : SlotId) :
    (s.withdrawEntry a i).inReset = s.inReset := (rfl)
@[simp] theorem State.withdrawEntry_port (s : State) (a : AgentId) (i : SlotId) :
    (s.withdrawEntry a i).port = s.port := (rfl)
@[simp] theorem State.withdrawEntry_pending (s : State) (a : AgentId) (i : SlotId) :
    (s.withdrawEntry a i).pending = s.pending := (rfl)

theorem State.withdrawEntry_notice (s : State) (a : AgentId) (i : SlotId) (b : AgentId) :
    (s.withdrawEntry a i).notice b =
      if b = a then { s.notice b with entries := (s.notice b).entries.filter fun n => n.handle != s.handle i }
      else s.notice b := by
  unfold State.withdrawEntry; rw [State.notice_setNotice]; split
  · next h => rw [h]
  · rfl

@[simp] theorem State.leavePlace_slot (s : State) (i : SlotId) (r : Record) (j : SlotId) :
    (s.leavePlace i r).slot j = s.slot j := by unfold State.leavePlace; split <;> simp
@[simp] theorem State.leavePlace_record (s : State) (i : SlotId) (r : Record) (j : SlotId) :
    (s.leavePlace i r).record j = s.record j := by unfold State.leavePlace; split <;> simp
@[simp] theorem State.leavePlace_agent (s : State) (i : SlotId) (r : Record) (b : AgentId) :
    (s.leavePlace i r).agent b = s.agent b := by unfold State.leavePlace; split <;> simp
@[simp] theorem State.leavePlace_notice (s : State) (i : SlotId) (r : Record) (b : AgentId) :
    (s.leavePlace i r).notice b = s.notice b := by unfold State.leavePlace; split <;> simp
@[simp] theorem State.leavePlace_station (s : State) (i : SlotId) (r : Record) (b : AgentId) :
    (s.leavePlace i r).station b = s.station b := by unfold State.leavePlace; split <;> simp
@[simp] theorem State.leavePlace_owner (s : State) (i : SlotId) (r : Record) (j : SlotId) :
    (s.leavePlace i r).owner j = s.owner j := by unfold State.leavePlace; split <;> simp
@[simp] theorem State.leavePlace_holding (s : State) (i : SlotId) (r : Record) (j : SlotId) :
    (s.leavePlace i r).holding j = s.holding j := by unfold State.leavePlace; split <;> simp
@[simp] theorem State.leavePlace_isShared (s : State) (i : SlotId) (r : Record) (j : SlotId) :
    (s.leavePlace i r).isShared j = s.isShared j := by unfold State.leavePlace; split <;> simp
@[simp] theorem State.leavePlace_holders (s : State) (i : SlotId) (r : Record) (v : UnitId) :
    (s.leavePlace i r).holders v = s.holders v := by unfold State.leavePlace; split <;> simp
@[simp] theorem State.leavePlace_recordCount (s : State) (i : SlotId) (r : Record) (b : AgentId) :
    (s.leavePlace i r).recordCount b = s.recordCount b := by unfold State.leavePlace; split <;> simp
@[simp] theorem State.leavePlace_handle (s : State) (i : SlotId) (r : Record) (j : SlotId) :
    (s.leavePlace i r).handle j = s.handle j := by unfold State.leavePlace; split <;> simp
@[simp] theorem State.leavePlace_busy (s : State) (i : SlotId) (r : Record) (b : AgentId) :
    (s.leavePlace i r).busy b = s.busy b := by unfold State.leavePlace; split <;> simp
@[simp] theorem State.leavePlace_isAttached (s : State) (i : SlotId) (r : Record) (b : AgentId) :
    (s.leavePlace i r).isAttached b = s.isAttached b := by unfold State.leavePlace; split <;> simp
@[simp] theorem State.leavePlace_bandPermits (s : State) (i : SlotId) (r : Record) (b : AgentId) (v : UnitId) :
    (s.leavePlace i r).bandPermits b v = s.bandPermits b v := by unfold State.leavePlace; split <;> simp
@[simp] theorem State.leavePlace_control (s : State) (i : SlotId) (r : Record) :
    (s.leavePlace i r).control = s.control := by unfold State.leavePlace; split <;> simp
@[simp] theorem State.leavePlace_timer (s : State) (i : SlotId) (r : Record) :
    (s.leavePlace i r).timer = s.timer := by unfold State.leavePlace; split <;> simp
@[simp] theorem State.leavePlace_ceiling (s : State) (i : SlotId) (r : Record) :
    (s.leavePlace i r).ceiling = s.ceiling := by unfold State.leavePlace; split <;> simp
@[simp] theorem State.leavePlace_frozen (s : State) (i : SlotId) (r : Record) :
    (s.leavePlace i r).frozen = s.frozen := by unfold State.leavePlace; split <;> simp
@[simp] theorem State.leavePlace_drained (s : State) (i : SlotId) (r : Record) :
    (s.leavePlace i r).drained = s.drained := by unfold State.leavePlace; split <;> simp
@[simp] theorem State.leavePlace_detached (s : State) (i : SlotId) (r : Record) :
    (s.leavePlace i r).detached = s.detached := by unfold State.leavePlace; split <;> simp
@[simp] theorem State.leavePlace_controlAttention (s : State) (i : SlotId) (r : Record) :
    (s.leavePlace i r).controlAttention = s.controlAttention := by unfold State.leavePlace; split <;> simp
@[simp] theorem State.leavePlace_supervisor (s : State) (i : SlotId) (r : Record) :
    (s.leavePlace i r).supervisor = s.supervisor := by unfold State.leavePlace; split <;> simp
@[simp] theorem State.leavePlace_inReset (s : State) (i : SlotId) (r : Record) :
    (s.leavePlace i r).inReset = s.inReset := by unfold State.leavePlace; split <;> simp
@[simp] theorem State.leavePlace_port (s : State) (i : SlotId) (r : Record) :
    (s.leavePlace i r).port = s.port := by unfold State.leavePlace; split <;> simp
@[simp] theorem State.leavePlace_pending (s : State) (i : SlotId) (r : Record) :
    (s.leavePlace i r).pending = s.pending := by unfold State.leavePlace; split <;> simp

/-- A departing record leaves the queue it waits in, or gives up its unit's mark; nothing else of any unit changes. -/
theorem State.leavePlace_unit (s : State) (i : SlotId) (r : Record) (v : UnitId) :
    (s.leavePlace i r).unit v =
      { s.unit v with
        queue := if r.isWaiting = true ∧ r.target = .unit v then (s.unit v).queue.filter (· ≠ i) else (s.unit v).queue
        mark := if r.holding = some v ∧ (s.unit v).mark = some i then none else (s.unit v).mark } := by
  unfold State.leavePlace
  cases h : r.standing with
  | waiting t d c =>
    rw [State.dequeue_unit]
    cases t <;>
      simp [Record.isWaiting, Record.holding, Record.target, Standing.claim, Claim.target, h]
    split <;> simp
  | held u d c =>
    rw [State.clearMarkOf_unit]
    simp only [Record.isWaiting, Record.holding, h, Option.some.injEq, eq_comm (a := u), Bool.false_eq_true,
      false_and, if_false]
    split <;> simp_all
  | recalled u d c =>
    rw [State.clearMarkOf_unit]
    simp only [Record.isWaiting, Record.holding, h, Option.some.injEq, eq_comm (a := u), Bool.false_eq_true,
      false_and, if_false]
    split <;> simp_all
  | spent k c => simp [Record.isWaiting, Record.holding, h]

theorem State.leavePlace_pool (s : State) (i : SlotId) (r : Record) (q : PoolId) :
    (s.leavePlace i r).pool q =
      { s.pool q with
        queue := if r.isWaiting = true ∧ r.target = .pool q then (s.pool q).queue.filter (· ≠ i)
          else (s.pool q).queue } := by
  unfold State.leavePlace
  cases h : r.standing with
  | waiting t d c =>
    rw [State.dequeue_pool]
    cases t <;> simp [Record.isWaiting, Record.target, Standing.claim, Claim.target, h]
    split <;> simp
  | held u d c => simp [Record.isWaiting, h]
  | recalled u d c => simp [Record.isWaiting, h]
  | spent k c => simp [Record.isWaiting, h]

@[simp] theorem State.endWalk_unit (s : State) (a : AgentId) (v : UnitId) :
    (s.endWalk a).unit v = s.unit v := by unfold State.endWalk; split <;> rfl
@[simp] theorem State.endWalk_pool (s : State) (a : AgentId) (q : PoolId) :
    (s.endWalk a).pool q = s.pool q := by unfold State.endWalk; split <;> rfl
@[simp] theorem State.endWalk_slot (s : State) (a : AgentId) (j : SlotId) :
    (s.endWalk a).slot j = s.slot j := by unfold State.endWalk; split <;> rfl
@[simp] theorem State.endWalk_record (s : State) (a : AgentId) (j : SlotId) :
    (s.endWalk a).record j = s.record j := by unfold State.endWalk; split <;> rfl
@[simp] theorem State.endWalk_notice (s : State) (a : AgentId) (b : AgentId) :
    (s.endWalk a).notice b = s.notice b := by unfold State.endWalk; split <;> rfl
@[simp] theorem State.endWalk_owner (s : State) (a : AgentId) (j : SlotId) :
    (s.endWalk a).owner j = s.owner j := by unfold State.endWalk; split <;> rfl
@[simp] theorem State.endWalk_holding (s : State) (a : AgentId) (j : SlotId) :
    (s.endWalk a).holding j = s.holding j := by unfold State.endWalk; split <;> rfl
@[simp] theorem State.endWalk_isShared (s : State) (a : AgentId) (j : SlotId) :
    (s.endWalk a).isShared j = s.isShared j := by unfold State.endWalk; split <;> rfl
@[simp] theorem State.endWalk_holders (s : State) (a : AgentId) (v : UnitId) :
    (s.endWalk a).holders v = s.holders v := by unfold State.endWalk; split <;> rfl
@[simp] theorem State.endWalk_recordCount (s : State) (a : AgentId) (b : AgentId) :
    (s.endWalk a).recordCount b = s.recordCount b := by unfold State.endWalk; split <;> rfl
@[simp] theorem State.endWalk_handle (s : State) (a : AgentId) (j : SlotId) :
    (s.endWalk a).handle j = s.handle j := by unfold State.endWalk; split <;> rfl
@[simp] theorem State.endWalk_control (s : State) (a : AgentId) :
    (s.endWalk a).control = s.control := by unfold State.endWalk; split <;> rfl
@[simp] theorem State.endWalk_timer (s : State) (a : AgentId) :
    (s.endWalk a).timer = s.timer := by unfold State.endWalk; split <;> rfl
@[simp] theorem State.endWalk_ceiling (s : State) (a : AgentId) :
    (s.endWalk a).ceiling = s.ceiling := by unfold State.endWalk; split <;> rfl
@[simp] theorem State.endWalk_frozen (s : State) (a : AgentId) :
    (s.endWalk a).frozen = s.frozen := by unfold State.endWalk; split <;> rfl
@[simp] theorem State.endWalk_drained (s : State) (a : AgentId) :
    (s.endWalk a).drained = s.drained := by unfold State.endWalk; split <;> rfl
@[simp] theorem State.endWalk_controlAttention (s : State) (a : AgentId) :
    (s.endWalk a).controlAttention = s.controlAttention := by unfold State.endWalk; split <;> rfl
@[simp] theorem State.endWalk_supervisor (s : State) (a : AgentId) :
    (s.endWalk a).supervisor = s.supervisor := by unfold State.endWalk; split <;> rfl
@[simp] theorem State.endWalk_inReset (s : State) (a : AgentId) :
    (s.endWalk a).inReset = s.inReset := by unfold State.endWalk; split <;> rfl
@[simp] theorem State.endWalk_port (s : State) (a : AgentId) :
    (s.endWalk a).port = s.port := by unfold State.endWalk; split <;> rfl
@[simp] theorem State.endWalk_pending (s : State) (a : AgentId) :
    (s.endWalk a).pending = s.pending := by unfold State.endWalk; split <;> rfl

/-- The walk of a DETACHING agent without a record ends: it is DETACHED, its held flag clear (R145). -/
theorem State.endWalk_agent (s : State) (a b : AgentId) :
    (s.endWalk a).agent b =
      if b = a ∧ s.busy a = true ∧ s.recordCount a = 0 then { s.agent b with state := .detached, held := false }
      else s.agent b := by
  unfold State.endWalk
  by_cases h : s.busy a = true ∧ s.recordCount a = 0
  · rw [if_pos h]
    by_cases hb : b = a
    · subst hb; simp [State.answer, h]
    · simp [State.answer, State.agent_setAgent, hb]
  · rw [if_neg h, if_neg (fun k => h k.2)]

@[simp] theorem State.remove_control (s : State) (i : SlotId) (r : Record) :
    (s.remove i r).control = s.control := by simp [State.remove]
@[simp] theorem State.remove_ceiling (s : State) (i : SlotId) (r : Record) :
    (s.remove i r).ceiling = s.ceiling := by simp [State.remove]
@[simp] theorem State.remove_frozen (s : State) (i : SlotId) (r : Record) :
    (s.remove i r).frozen = s.frozen := by simp [State.remove]
@[simp] theorem State.remove_drained (s : State) (i : SlotId) (r : Record) :
    (s.remove i r).drained = s.drained := by simp [State.remove]
@[simp] theorem State.remove_controlAttention (s : State) (i : SlotId) (r : Record) :
    (s.remove i r).controlAttention = s.controlAttention := by simp [State.remove]
@[simp] theorem State.remove_supervisor (s : State) (i : SlotId) (r : Record) :
    (s.remove i r).supervisor = s.supervisor := by simp [State.remove]
@[simp] theorem State.remove_inReset (s : State) (i : SlotId) (r : Record) :
    (s.remove i r).inReset = s.inReset := by simp [State.remove]
@[simp] theorem State.remove_port (s : State) (i : SlotId) (r : Record) :
    (s.remove i r).port = s.port := by simp [State.remove]
@[simp] theorem State.remove_pending (s : State) (i : SlotId) (r : Record) :
    (s.remove i r).pending = s.pending := by simp [State.remove]

/-- Removal frees the slot and touches no other record (R35). -/
theorem State.remove_record (s : State) (i : SlotId) (r : Record) (j : SlotId) :
    (s.remove i r).record j = if j = i then none else s.record j := by
  simp [State.remove, State.record_loadRecord]

@[simp] theorem State.remove_serial (s : State) (i : SlotId) (r : Record) (j : SlotId) :
    ((s.remove i r).slot j).serial = (s.slot j).serial := by simp [State.remove]

@[simp] theorem State.remove_handle (s : State) (i : SlotId) (r : Record) (j : SlotId) :
    (s.remove i r).handle j = s.handle j := by simp [State.handle]

theorem State.remove_unit (s : State) (i : SlotId) (r : Record) (v : UnitId) :
    (s.remove i r).unit v = (s.leavePlace i r).unit v := by simp [State.remove]

theorem State.remove_pool (s : State) (i : SlotId) (r : Record) (q : PoolId) :
    (s.remove i r).pool q = (s.leavePlace i r).pool q := by simp [State.remove]

/-- The removed record's unread entry is withdrawn (R127). -/
theorem State.remove_notice (s : State) (i : SlotId) (r : Record) (b : AgentId) :
    (s.remove i r).notice b =
      if b = r.agent then { s.notice b with entries := (s.notice b).entries.filter fun n => n.handle != s.handle i }
      else s.notice b := by
  simp [State.remove, State.withdrawEntry_notice]

@[simp] theorem State.remove_timer (s : State) (i : SlotId) (r : Record) :
    (s.remove i r).timer = s.timer.spoil i := by simp [State.remove]

/-- Removal changes the agent record of the record's agent alone, and only where its walk ends (R145). -/
theorem State.remove_agent (s : State) (i : SlotId) (r : Record) (b : AgentId) :
    (s.remove i r).agent b =
      if b = r.agent ∧ s.busy b = true ∧ (s.loadRecord i none).recordCount b = 0 then
        { s.agent b with state := .detached, held := false }
      else s.agent b := by
  have hc : (((s.leavePlace i r).withdrawEntry r.agent i).loadRecord i none).recordCount r.agent =
      (s.loadRecord i none).recordCount r.agent := by
    simp [State.recordCount, State.owner, State.record_loadRecord]
  simp only [State.remove, State.endWalk_agent, hc, State.loadRecord_busy, State.withdrawEntry_busy,
    State.leavePlace_busy, State.loadRecord_agent, State.withdrawEntry_agent, State.leavePlace_agent]
  by_cases hb : b = r.agent
  · subst hb; rfl
  · simp [hb]

/-- The record that is spent keeps its kind, target and mode, and takes the cause (R29). -/
theorem State.markSpent_record (s : State) (i : SlotId) (r : Record) (cause : SpentCause) (j : SlotId) :
    (s.markSpent i r cause).record j =
      if j = i then some { r with standing := .spent r.standing.claim cause } else s.record j := by
  simp [State.markSpent, State.record_loadRecord]

@[simp] theorem State.markSpent_serial (s : State) (i : SlotId) (r : Record) (cause : SpentCause) (j : SlotId) :
    ((s.markSpent i r cause).slot j).serial = (s.slot j).serial := by simp [State.markSpent]

@[simp] theorem State.markSpent_handle (s : State) (i : SlotId) (r : Record) (cause : SpentCause) (j : SlotId) :
    (s.markSpent i r cause).handle j = s.handle j := by simp [State.handle]

theorem State.markSpent_unit (s : State) (i : SlotId) (r : Record) (cause : SpentCause) (v : UnitId) :
    (s.markSpent i r cause).unit v = (s.leavePlace i r).unit v := by simp [State.markSpent]

theorem State.markSpent_pool (s : State) (i : SlotId) (r : Record) (cause : SpentCause) (q : PoolId) :
    (s.markSpent i r cause).pool q = (s.leavePlace i r).pool q := by simp [State.markSpent]

@[simp] theorem State.markSpent_timer (s : State) (i : SlotId) (r : Record) (cause : SpentCause) :
    (s.markSpent i r cause).timer = s.timer.spoil i := by simp [State.markSpent]

theorem State.markSpent_notice (s : State) (i : SlotId) (r : Record) (cause : SpentCause) (b : AgentId) :
    (s.markSpent i r cause).notice b =
      if b = r.agent ∧ s.isAttached r.agent = true then
        { s.notice b with entries := postEntry (s.notice b).entries ⟨cause.notice, s.handle i, r.target⟩ }
      else s.notice b := by
  simp [State.markSpent, State.post_notice, State.record_loadRecord, Record.target, Standing.claim]

@[simp] theorem State.markSpent_agent (s : State) (i : SlotId) (r : Record) (cause : SpentCause) (b : AgentId) :
    (s.markSpent i r cause).agent b = s.agent b := by simp [State.markSpent]
@[simp] theorem State.markSpent_station (s : State) (i : SlotId) (r : Record) (cause : SpentCause) (b : AgentId) :
    (s.markSpent i r cause).station b = s.station b := by simp [State.markSpent]
@[simp] theorem State.markSpent_busy (s : State) (i : SlotId) (r : Record) (cause : SpentCause) (b : AgentId) :
    (s.markSpent i r cause).busy b = s.busy b := by simp [State.markSpent]
@[simp] theorem State.markSpent_isAttached (s : State) (i : SlotId) (r : Record) (cause : SpentCause) (b : AgentId) :
    (s.markSpent i r cause).isAttached b = s.isAttached b := by simp [State.markSpent]
@[simp] theorem State.markSpent_bandPermits (s : State) (i : SlotId) (r : Record) (cause : SpentCause) (b : AgentId) (v : UnitId) :
    (s.markSpent i r cause).bandPermits b v = s.bandPermits b v := by
  simp [State.markSpent]
@[simp] theorem State.markSpent_control (s : State) (i : SlotId) (r : Record) (cause : SpentCause) :
    (s.markSpent i r cause).control = s.control := by simp [State.markSpent]
@[simp] theorem State.markSpent_ceiling (s : State) (i : SlotId) (r : Record) (cause : SpentCause) :
    (s.markSpent i r cause).ceiling = s.ceiling := by simp [State.markSpent]
@[simp] theorem State.markSpent_frozen (s : State) (i : SlotId) (r : Record) (cause : SpentCause) :
    (s.markSpent i r cause).frozen = s.frozen := by simp [State.markSpent]
@[simp] theorem State.markSpent_drained (s : State) (i : SlotId) (r : Record) (cause : SpentCause) :
    (s.markSpent i r cause).drained = s.drained := by simp [State.markSpent]
@[simp] theorem State.markSpent_detached (s : State) (i : SlotId) (r : Record) (cause : SpentCause) :
    (s.markSpent i r cause).detached = s.detached := by simp [State.markSpent]
@[simp] theorem State.markSpent_controlAttention (s : State) (i : SlotId) (r : Record) (cause : SpentCause) :
    (s.markSpent i r cause).controlAttention = s.controlAttention := by simp [State.markSpent]
@[simp] theorem State.markSpent_supervisor (s : State) (i : SlotId) (r : Record) (cause : SpentCause) :
    (s.markSpent i r cause).supervisor = s.supervisor := by simp [State.markSpent]
@[simp] theorem State.markSpent_inReset (s : State) (i : SlotId) (r : Record) (cause : SpentCause) :
    (s.markSpent i r cause).inReset = s.inReset := by simp [State.markSpent]
@[simp] theorem State.markSpent_port (s : State) (i : SlotId) (r : Record) (cause : SpentCause) :
    (s.markSpent i r cause).port = s.port := by simp [State.markSpent]
@[simp] theorem State.markSpent_pending (s : State) (i : SlotId) (r : Record) (cause : SpentCause) :
    (s.markSpent i r cause).pending = s.pending := by simp [State.markSpent]

/-- The recalled record keeps its depth, its mode and its unit, and takes the unit's grace (R158). -/
theorem State.markRecalled_record (s : State) (i : SlotId) (r : Record) (u : UnitId) (d : Nat) (j : SlotId) :
    (s.markRecalled i r u d).record j =
      if j = i then some { r with standing := .recalled u d (s.unit u).config.grace } else s.record j := by
  simp [State.markRecalled, State.record_loadRecord]

@[simp] theorem State.markRecalled_serial (s : State) (i : SlotId) (r : Record) (u : UnitId) (d : Nat) (j : SlotId) :
    ((s.markRecalled i r u d).slot j).serial = (s.slot j).serial := by simp [State.markRecalled]

@[simp] theorem State.markRecalled_handle (s : State) (i : SlotId) (r : Record) (u : UnitId) (d : Nat) (j : SlotId) :
    (s.markRecalled i r u d).handle j = s.handle j := by simp [State.handle]

theorem State.markRecalled_unit (s : State) (i : SlotId) (r : Record) (u : UnitId) (d : Nat) (v : UnitId) :
    (s.markRecalled i r u d).unit v = (s.clearMarkOf u i).unit v := by simp [State.markRecalled]

@[simp] theorem State.markRecalled_timer (s : State) (i : SlotId) (r : Record) (u : UnitId) (d : Nat) :
    (s.markRecalled i r u d).timer = s.timer.spoil i := by simp [State.markRecalled]

theorem State.markRecalled_notice (s : State) (i : SlotId) (r : Record) (u : UnitId) (d : Nat) (b : AgentId) :
    (s.markRecalled i r u d).notice b =
      if b = r.agent ∧ s.isAttached r.agent = true then
        { s.notice b with entries := postEntry (s.notice b).entries ⟨.recalled, s.handle i, .unit u⟩ }
      else s.notice b := by
  simp [State.markRecalled, State.post_notice, State.record_loadRecord, Record.target, Standing.claim, Claim.target]

@[simp] theorem State.markRecalled_pool (s : State) (i : SlotId) (r : Record) (u : UnitId) (d : Nat) (q : PoolId) :
    (s.markRecalled i r u d).pool q = s.pool q := by simp [State.markRecalled]
@[simp] theorem State.markRecalled_agent (s : State) (i : SlotId) (r : Record) (u : UnitId) (d : Nat) (b : AgentId) :
    (s.markRecalled i r u d).agent b = s.agent b := by simp [State.markRecalled]
@[simp] theorem State.markRecalled_station (s : State) (i : SlotId) (r : Record) (u : UnitId) (d : Nat) (b : AgentId) :
    (s.markRecalled i r u d).station b = s.station b := by simp [State.markRecalled]
@[simp] theorem State.markRecalled_busy (s : State) (i : SlotId) (r : Record) (u : UnitId) (d : Nat) (b : AgentId) :
    (s.markRecalled i r u d).busy b = s.busy b := by simp [State.markRecalled]
@[simp] theorem State.markRecalled_isAttached (s : State) (i : SlotId) (r : Record) (u : UnitId) (d : Nat) (b : AgentId) :
    (s.markRecalled i r u d).isAttached b = s.isAttached b := by
  simp [State.markRecalled]
@[simp] theorem State.markRecalled_bandPermits (s : State) (i : SlotId) (r : Record) (u : UnitId) (d : Nat) (b : AgentId) (v : UnitId) :
    (s.markRecalled i r u d).bandPermits b v = s.bandPermits b v := by
  simp [State.markRecalled]
@[simp] theorem State.markRecalled_control (s : State) (i : SlotId) (r : Record) (u : UnitId) (d : Nat) :
    (s.markRecalled i r u d).control = s.control := by simp [State.markRecalled]
@[simp] theorem State.markRecalled_ceiling (s : State) (i : SlotId) (r : Record) (u : UnitId) (d : Nat) :
    (s.markRecalled i r u d).ceiling = s.ceiling := by simp [State.markRecalled]
@[simp] theorem State.markRecalled_frozen (s : State) (i : SlotId) (r : Record) (u : UnitId) (d : Nat) :
    (s.markRecalled i r u d).frozen = s.frozen := by simp [State.markRecalled]
@[simp] theorem State.markRecalled_drained (s : State) (i : SlotId) (r : Record) (u : UnitId) (d : Nat) :
    (s.markRecalled i r u d).drained = s.drained := by simp [State.markRecalled]
@[simp] theorem State.markRecalled_detached (s : State) (i : SlotId) (r : Record) (u : UnitId) (d : Nat) :
    (s.markRecalled i r u d).detached = s.detached := by simp [State.markRecalled]
@[simp] theorem State.markRecalled_controlAttention (s : State) (i : SlotId) (r : Record) (u : UnitId) (d : Nat) :
    (s.markRecalled i r u d).controlAttention = s.controlAttention := by simp [State.markRecalled]
@[simp] theorem State.markRecalled_supervisor (s : State) (i : SlotId) (r : Record) (u : UnitId) (d : Nat) :
    (s.markRecalled i r u d).supervisor = s.supervisor := by simp [State.markRecalled]
@[simp] theorem State.markRecalled_inReset (s : State) (i : SlotId) (r : Record) (u : UnitId) (d : Nat) :
    (s.markRecalled i r u d).inReset = s.inReset := by simp [State.markRecalled]
@[simp] theorem State.markRecalled_port (s : State) (i : SlotId) (r : Record) (u : UnitId) (d : Nat) :
    (s.markRecalled i r u d).port = s.port := by simp [State.markRecalled]
@[simp] theorem State.markRecalled_pending (s : State) (i : SlotId) (r : Record) (u : UnitId) (d : Nat) :
    (s.markRecalled i r u d).pending = s.pending := by simp [State.markRecalled]

/-! ### The end of a drain -/

@[simp] theorem State.completeDrain_pool (s : State) (u : UnitId) (q : PoolId) :
    (s.completeDrain u).pool q = s.pool q := by unfold State.completeDrain; split <;> rfl
@[simp] theorem State.completeDrain_slot (s : State) (u : UnitId) (j : SlotId) :
    (s.completeDrain u).slot j = s.slot j := by unfold State.completeDrain; split <;> rfl
@[simp] theorem State.completeDrain_record (s : State) (u : UnitId) (j : SlotId) :
    (s.completeDrain u).record j = s.record j := by unfold State.completeDrain; split <;> rfl
@[simp] theorem State.completeDrain_agent (s : State) (u : UnitId) (b : AgentId) :
    (s.completeDrain u).agent b = s.agent b := by unfold State.completeDrain; split <;> rfl
@[simp] theorem State.completeDrain_notice (s : State) (u : UnitId) (b : AgentId) :
    (s.completeDrain u).notice b = s.notice b := by unfold State.completeDrain; split <;> rfl
@[simp] theorem State.completeDrain_station (s : State) (u : UnitId) (b : AgentId) :
    (s.completeDrain u).station b = s.station b := by unfold State.completeDrain; split <;> rfl
@[simp] theorem State.completeDrain_owner (s : State) (u : UnitId) (j : SlotId) :
    (s.completeDrain u).owner j = s.owner j := by unfold State.completeDrain; split <;> rfl
@[simp] theorem State.completeDrain_holding (s : State) (u : UnitId) (j : SlotId) :
    (s.completeDrain u).holding j = s.holding j := by unfold State.completeDrain; split <;> rfl
@[simp] theorem State.completeDrain_isShared (s : State) (u : UnitId) (j : SlotId) :
    (s.completeDrain u).isShared j = s.isShared j := by unfold State.completeDrain; split <;> rfl
@[simp] theorem State.completeDrain_holders (s : State) (u : UnitId) (v : UnitId) :
    (s.completeDrain u).holders v = s.holders v := by unfold State.completeDrain; split <;> rfl
@[simp] theorem State.completeDrain_recordCount (s : State) (u : UnitId) (b : AgentId) :
    (s.completeDrain u).recordCount b = s.recordCount b := by unfold State.completeDrain; split <;> rfl
@[simp] theorem State.completeDrain_handle (s : State) (u : UnitId) (j : SlotId) :
    (s.completeDrain u).handle j = s.handle j := by unfold State.completeDrain; split <;> rfl
@[simp] theorem State.completeDrain_busy (s : State) (u : UnitId) (b : AgentId) :
    (s.completeDrain u).busy b = s.busy b := by unfold State.completeDrain; split <;> rfl
@[simp] theorem State.completeDrain_isAttached (s : State) (u : UnitId) (b : AgentId) :
    (s.completeDrain u).isAttached b = s.isAttached b := by unfold State.completeDrain; split <;> rfl
@[simp] theorem State.completeDrain_bandPermits (s : State) (u : UnitId) (b : AgentId) (v : UnitId) :
    (s.completeDrain u).bandPermits b v = s.bandPermits b v := by unfold State.completeDrain; split <;> rfl
@[simp] theorem State.completeDrain_control (s : State) (u : UnitId) :
    (s.completeDrain u).control = s.control := by unfold State.completeDrain; split <;> rfl
@[simp] theorem State.completeDrain_timer (s : State) (u : UnitId) :
    (s.completeDrain u).timer = s.timer := by unfold State.completeDrain; split <;> rfl
@[simp] theorem State.completeDrain_ceiling (s : State) (u : UnitId) :
    (s.completeDrain u).ceiling = s.ceiling := by unfold State.completeDrain; split <;> rfl
@[simp] theorem State.completeDrain_frozen (s : State) (u : UnitId) :
    (s.completeDrain u).frozen = s.frozen := by unfold State.completeDrain; split <;> rfl
@[simp] theorem State.completeDrain_detached (s : State) (u : UnitId) :
    (s.completeDrain u).detached = s.detached := by unfold State.completeDrain; split <;> rfl
@[simp] theorem State.completeDrain_controlAttention (s : State) (u : UnitId) :
    (s.completeDrain u).controlAttention = s.controlAttention := by unfold State.completeDrain; split <;> rfl
@[simp] theorem State.completeDrain_supervisor (s : State) (u : UnitId) :
    (s.completeDrain u).supervisor = s.supervisor := by unfold State.completeDrain; split <;> rfl
@[simp] theorem State.completeDrain_inReset (s : State) (u : UnitId) :
    (s.completeDrain u).inReset = s.inReset := by unfold State.completeDrain; split <;> rfl
@[simp] theorem State.completeDrain_port (s : State) (u : UnitId) :
    (s.completeDrain u).port = s.port := by unfold State.completeDrain; split <;> rfl
@[simp] theorem State.completeDrain_pending (s : State) (u : UnitId) :
    (s.completeDrain u).pending = s.pending := by unfold State.completeDrain; split <;> rfl

/-- A DRAINING unit without a holder becomes OFFLINE (R162). -/
theorem State.completeDrain_unit (s : State) (u v : UnitId) :
    (s.completeDrain u).unit v =
      if v = u ∧ (s.unit v).state = .draining ∧ s.holders v = [] then { s.unit v with state := .offline }
      else s.unit v := by
  unfold State.completeDrain
  by_cases hv : v = u
  · subst hv
    by_cases h : (s.unit v).state = .draining ∧ (s.holders v).isEmpty = true
    · rw [if_pos h, if_pos ⟨rfl, h.1, List.isEmpty_iff.1 h.2⟩]; simp
    · rw [if_neg h, if_neg (fun k => h ⟨k.2.1, List.isEmpty_iff.2 k.2.2⟩)]
  · split
    · simp [State.unit_setUnit, hv]
    · simp [hv]

/-! ### A new record -/

@[simp] theorem State.allocate_agent (s : State) (i : SlotId) (a : AgentId) (m : Mode) (t : Target) (d w : Nat) (b : AgentId) :
    (s.allocate i a m t d w).agent b = s.agent b := by
  cases t <;> rfl
@[simp] theorem State.allocate_notice (s : State) (i : SlotId) (a : AgentId) (m : Mode) (t : Target) (d w : Nat) (b : AgentId) :
    (s.allocate i a m t d w).notice b = s.notice b := by
  cases t <;> rfl
@[simp] theorem State.allocate_station (s : State) (i : SlotId) (a : AgentId) (m : Mode) (t : Target) (d w : Nat) (b : AgentId) :
    (s.allocate i a m t d w).station b = s.station b := by
  cases t <;> rfl
@[simp] theorem State.allocate_busy (s : State) (i : SlotId) (a : AgentId) (m : Mode) (t : Target) (d w : Nat) (b : AgentId) :
    (s.allocate i a m t d w).busy b = s.busy b := by
  cases t <;> rfl
@[simp] theorem State.allocate_isAttached (s : State) (i : SlotId) (a : AgentId) (m : Mode) (t : Target) (d w : Nat) (b : AgentId) :
    (s.allocate i a m t d w).isAttached b = s.isAttached b := by
  cases t <;> rfl
@[simp] theorem State.allocate_bandPermits (s : State) (i : SlotId) (a : AgentId) (m : Mode) (t : Target) (d w : Nat) (b : AgentId) (v : UnitId) :
    (s.allocate i a m t d w).bandPermits b v = s.bandPermits b v := by
  cases t <;> rfl
@[simp] theorem State.allocate_control (s : State) (i : SlotId) (a : AgentId) (m : Mode) (t : Target) (d w : Nat) :
    (s.allocate i a m t d w).control = s.control := by cases t <;> rfl
@[simp] theorem State.allocate_timer (s : State) (i : SlotId) (a : AgentId) (m : Mode) (t : Target) (d w : Nat) :
    (s.allocate i a m t d w).timer = s.timer := by cases t <;> rfl
@[simp] theorem State.allocate_ceiling (s : State) (i : SlotId) (a : AgentId) (m : Mode) (t : Target) (d w : Nat) :
    (s.allocate i a m t d w).ceiling = s.ceiling := by cases t <;> rfl
@[simp] theorem State.allocate_frozen (s : State) (i : SlotId) (a : AgentId) (m : Mode) (t : Target) (d w : Nat) :
    (s.allocate i a m t d w).frozen = s.frozen := by cases t <;> rfl
@[simp] theorem State.allocate_drained (s : State) (i : SlotId) (a : AgentId) (m : Mode) (t : Target) (d w : Nat) :
    (s.allocate i a m t d w).drained = s.drained := by cases t <;> rfl
@[simp] theorem State.allocate_detached (s : State) (i : SlotId) (a : AgentId) (m : Mode) (t : Target) (d w : Nat) :
    (s.allocate i a m t d w).detached = s.detached := by cases t <;> rfl
@[simp] theorem State.allocate_controlAttention (s : State) (i : SlotId) (a : AgentId) (m : Mode) (t : Target) (d w : Nat) :
    (s.allocate i a m t d w).controlAttention = s.controlAttention := by cases t <;> rfl
@[simp] theorem State.allocate_supervisor (s : State) (i : SlotId) (a : AgentId) (m : Mode) (t : Target) (d w : Nat) :
    (s.allocate i a m t d w).supervisor = s.supervisor := by cases t <;> rfl
@[simp] theorem State.allocate_inReset (s : State) (i : SlotId) (a : AgentId) (m : Mode) (t : Target) (d w : Nat) :
    (s.allocate i a m t d w).inReset = s.inReset := by cases t <;> rfl
@[simp] theorem State.allocate_port (s : State) (i : SlotId) (a : AgentId) (m : Mode) (t : Target) (d w : Nat) :
    (s.allocate i a m t d w).port = s.port := by cases t <;> rfl
@[simp] theorem State.allocate_pending (s : State) (i : SlotId) (a : AgentId) (m : Mode) (t : Target) (d w : Nat) :
    (s.allocate i a m t d w).pending = s.pending := by cases t <;> rfl

/-- The slot holds a WAITING record of the agent; every other record is unchanged (R31, R50, R54). -/
theorem State.allocate_record (s : State) (i : SlotId) (a : AgentId) (m : Mode) (t : Target) (d w : Nat) (j : SlotId) :
    (s.allocate i a m t d w).record j =
      if j = i then some ⟨a, m, .waiting t d (if w = 0 ∨ w = 4095 then none else some w)⟩ else s.record j := by
  cases t <;> simp [State.allocate, State.record_setSlot]

/-- The slot's serial rises by 1 modulo 256, and no other (R22). -/
theorem State.allocate_serial (s : State) (i : SlotId) (a : AgentId) (m : Mode) (t : Target) (d w : Nat) (j : SlotId) :
    ((s.allocate i a m t d w).slot j).serial =
      if j = i then (s.slot j).serial + 1 else (s.slot j).serial := by
  by_cases hj : j = i
  · subst hj; cases t <;> simp [State.allocate]
  · cases t <;> simp [State.allocate, State.slot_setSlot, hj]

theorem State.allocate_unit (s : State) (i : SlotId) (a : AgentId) (m : Mode) (t : Target) (d w : Nat) (v : UnitId) :
    (s.allocate i a m t d w).unit v =
      if t = .unit v then { s.unit v with queue := (s.unit v).queue ++ [i] } else s.unit v := by
  cases t with
  | pool p => simp [State.allocate]
  | unit u =>
    by_cases h : u = v
    · subst h; simp [State.allocate]
    · simp [State.allocate, State.unit_setUnit, h, Ne.symm h]

theorem State.allocate_pool (s : State) (i : SlotId) (a : AgentId) (m : Mode) (t : Target) (d w : Nat) (q : PoolId) :
    (s.allocate i a m t d w).pool q =
      if t = .pool q then { s.pool q with queue := (s.pool q).queue ++ [i] } else s.pool q := by
  cases t with
  | unit u => simp [State.allocate]
  | pool p =>
    by_cases h : p = q
    · subst h; simp [State.allocate]
    · simp [State.allocate, State.pool_setPool, h, Ne.symm h]

/-! ### The start of a walk -/

/-- Emptying slots one after another frees exactly those slots. -/
theorem foldl_free_record (is : List SlotId) (s : State) (j : SlotId) :
    (is.foldl (fun s i => s.loadRecord i none) s).record j = if j ∈ is then none else s.record j := by
  induction is generalizing s with
  | nil => simp
  | cons i is ih =>
    rw [List.foldl_cons, ih, State.record_loadRecord]
    by_cases h : j ∈ is <;> by_cases k : j = i <;> simp [h, k]

/-- What no emptying of a slot changes, none of a row of them changes. -/
theorem foldl_free_same {α : Type} (f : State → α) (same : ∀ s i, f (State.loadRecord s i none) = f s)
    (is : List SlotId) (s : State) : f (is.foldl (fun s i => s.loadRecord i none) s) = f s := by
  induction is generalizing s with
  | nil => rfl
  | cons i is ih => rw [List.foldl_cons, ih, same]

/-- The walk's start retires the agent's SPENT records and no other (R141). -/
theorem State.beginWalk_record (s : State) (a : AgentId) (j : SlotId) :
    (s.beginWalk a).record j =
      if (s.record j).any (fun r => r.agent == a && r.isSpent) then none else s.record j := by
  unfold State.beginWalk
  dsimp only
  rw [State.endWalk_record, foldl_free_record]
  simp only [State.spentOf, List.mem_filter, allSlots, List.mem_finRange, true_and, State.answer,
    State.setNotice_record, State.setStation_record, State.setAgent_record]

/-- What the first changes of the walk's start do to a register that none of them writes. -/
theorem State.beginWalk_same {α : Type} (f : State → α) (s : State) (a : AgentId)
    (agent : ∀ s r, f (State.setAgent s a r) = f s) (station : ∀ s st, f (State.setStation s a st) = f s)
    (notice : ∀ s q, f (State.setNotice s a q) = f s) (slot : ∀ s i, f (State.loadRecord s i none) = f s)
    (walk : ∀ s, f (State.endWalk s a) = f s) : f (s.beginWalk a) = f s := by
  unfold State.beginWalk
  dsimp only
  rw [walk, foldl_free_same f slot, notice, State.answer, station, agent]

@[simp] theorem State.beginWalk_unit (s : State) (a : AgentId) (v : UnitId) : (s.beginWalk a).unit v = s.unit v :=
  s.beginWalk_same (·.unit v) a (fun _ _ => rfl) (fun _ _ => rfl) (fun _ _ => rfl) (fun _ _ => rfl)
    fun _ => by simp

@[simp] theorem State.beginWalk_pool (s : State) (a : AgentId) (q : PoolId) : (s.beginWalk a).pool q = s.pool q :=
  s.beginWalk_same (·.pool q) a (fun _ _ => rfl) (fun _ _ => rfl) (fun _ _ => rfl) (fun _ _ => rfl)
    fun _ => by simp

@[simp] theorem State.beginWalk_serial (s : State) (a : AgentId) (j : SlotId) :
    ((s.beginWalk a).slot j).serial = (s.slot j).serial :=
  s.beginWalk_same (fun s => (s.slot j).serial) a (fun _ _ => rfl) (fun _ _ => rfl) (fun _ _ => rfl)
    (fun _ _ => by simp) fun _ => by simp

/-- The walk's start empties the agent's notice queue and no other (R132). -/
theorem State.beginWalk_notice (s : State) (a b : AgentId) :
    (s.beginWalk a).notice b = if b = a then { s.notice b with entries := [] } else s.notice b := by
  unfold State.beginWalk
  dsimp only
  rw [State.endWalk_notice, foldl_free_same (·.notice b) (fun _ _ => rfl), State.notice_setNotice]
  split
  · next h => rw [h]; rfl
  · rfl

/-- The agent is DETACHING, or at once DETACHED where none but SPENT records were left; no other agent record
changes. -/
theorem State.beginWalk_agent (s : State) (a b : AgentId) :
    (s.beginWalk a).agent b =
      if b = a then
        if ∀ j r, s.record j = some r → r.agent = a → r.isSpent = true then
          { s.agent b with state := .detached, held := false }
        else { s.agent b with state := .detaching }
      else s.agent b := by
  unfold State.beginWalk
  dsimp only
  have hb : (List.foldl (fun s i => State.loadRecord s i none)
      (((s.setAgent a { s.agent a with state := .detaching }).answer a (.ok 0 0)).setNotice a
        { (((s.setAgent a { s.agent a with state := .detaching }).answer a (.ok 0 0))).notice a with entries := [] })
      ((((s.setAgent a { s.agent a with state := .detaching }).answer a (.ok 0 0)).setNotice a
        { (((s.setAgent a { s.agent a with state := .detaching }).answer a (.ok 0 0))).notice a with
          entries := [] }).spentOf a)).agent b =
      (s.setAgent a { s.agent a with state := .detaching }).agent b :=
    foldl_free_same (·.agent b) (fun _ _ => rfl) _ _
  rw [State.endWalk_agent, hb]
  by_cases h : b = a
  · subst h
    have hbusy : ∀ t : State, t.busy b = ((t.agent b).state == AgentState.detaching) := fun _ => rfl
    have hcount : ∀ t : State, t.recordCount b = 0 ↔ ∀ j r, t.record j = some r → r.agent ≠ b := by
      intro t
      simp only [State.recordCount, List.countP_eq_zero, allSlots, List.mem_finRange, true_implies, State.owner,
        beq_iff_eq, Option.map_eq_some_iff, not_exists, not_and]
    rw [hbusy, hb]
    simp only [hcount, foldl_free_record, State.spentOf, List.mem_filter, allSlots, List.mem_finRange, true_and,
      State.answer, State.setNotice_record, State.setStation_record, State.setAgent_record,
      State.agent_setAgent_self, beq_self_eq_true, if_true]
    refine if_congr ⟨fun k j r hr ha => ?_, fun k j r hr ha => ?_⟩ rfl rfl
    · by_contra hs
      refine k j r ?_ ha
      rw [if_neg (by simp [hr, ha, hs]), hr]
    · split at hr
      · cases hr
      · next hn => exact hn (by simp [hr, ha, k j r hr ha])
  · simp [h, State.agent_setAgent_of_ne]

/-! ### The resets -/

@[simp] theorem State.cleared_record (s : State) (j : SlotId) : s.cleared.record j = none := by
  simp [State.cleared, State.record, State.slot]

@[simp] theorem State.cleared_serial (s : State) (j : SlotId) :
    (s.cleared.slot j).serial = (s.slot j).serial := by simp [State.cleared, State.slot]

/-- RESET_LIVE empties queue and mark, sets the bottom agent to 15 and completes a drain (R19). -/
theorem State.cleared_unit (s : State) (v : UnitId) :
    s.cleared.unit v =
      { s.unit v with
        state := if (s.unit v).state = .draining then .offline else (s.unit v).state
        queue := [], mark := none, bottom := Config.defaultBottom } := by
  simp only [State.cleared, State.unit, Vector.get_eq_getElem, Vector.getElem_map]; rfl

theorem State.cleared_pool (s : State) (q : PoolId) :
    s.cleared.pool q = { s.pool q with queue := [], bottom := Config.defaultBottom } := by
  simp [State.cleared, State.pool]

theorem State.cleared_agent (s : State) (b : AgentId) :
    s.cleared.agent b =
      { s.agent b with
        state := if (s.agent b).state = .detaching then .detached else (s.agent b).state
        held := false } := by
  simp only [State.cleared, State.agent, Vector.get_eq_getElem, Vector.getElem_map]; rfl

theorem State.cleared_notice (s : State) (b : AgentId) : s.cleared.notice b = { s.notice b with entries := [] } := by
  simp [State.cleared, State.notice]

@[simp] theorem State.hardwareReset_record (s : State) (j : SlotId) : s.hardwareReset.record j = none := by
  simp [State.hardwareReset, State.record, State.slot]

@[simp] theorem State.hardwareReset_serial (s : State) (j : SlotId) :
    (s.hardwareReset.slot j).serial = (s.slot j).serial := by simp [State.hardwareReset, State.slot]

theorem State.hardwareReset_unit (s : State) (v : UnitId) :
    s.hardwareReset.unit v =
      { config := s.keepIfFrozen (s.unit v).config UnitConfig.default, state := .offline, queue := [], mark := none,
        bottom := Config.defaultBottom } := by
  simp [State.hardwareReset, State.unit]

theorem State.hardwareReset_pool (s : State) (q : PoolId) :
    s.hardwareReset.pool q =
      { order := s.keepIfFrozen (s.pool q).order .arrival, rotate := s.keepIfFrozen (s.pool q).rotate false,
        bottom := Config.defaultBottom, queue := [] } := by
  simp [State.hardwareReset, State.pool]

theorem State.hardwareReset_agent (s : State) (b : AgentId) :
    s.hardwareReset.agent b =
      { state := .detached
        quota := s.keepIfFrozen (s.agent b).quota Config.defaultQuota
        clearance := s.keepIfFrozen (s.agent b).clearance (decide (b = s.supervisor))
        held := false } := by
  simp [State.hardwareReset, State.agent]

theorem State.hardwareReset_notice (s : State) (b : AgentId) :
    s.hardwareReset.notice b = { entries := [], attention := false } := by
  simp [State.hardwareReset, State.notice, State.afterPowerOn]

theorem State.hardwareReset_station (s : State) (b : AgentId) : s.hardwareReset.station b = Station.zero := by
  simp [State.hardwareReset, State.station, State.afterPowerOn]

@[simp] theorem State.afterPowerOn_record (x : AgentId) (j : SlotId) : (State.afterPowerOn x).record j = none := by
  simp [State.afterPowerOn, State.record, State.slot]

theorem State.afterPowerOn_unit (x : AgentId) (v : UnitId) :
    (State.afterPowerOn x).unit v =
      { config := UnitConfig.default, state := .offline, queue := [], mark := none, bottom := Config.defaultBottom } := by
  simp [State.afterPowerOn, State.unit]

theorem State.afterPowerOn_pool (x : AgentId) (q : PoolId) :
    (State.afterPowerOn x).pool q =
      { order := .arrival, rotate := false, bottom := Config.defaultBottom, queue := [] } := by
  simp [State.afterPowerOn, State.pool]

theorem State.afterPowerOn_agent (x b : AgentId) : (State.afterPowerOn x).agent b = AgentRecord.default x b := by
  simp [State.afterPowerOn, State.agent]

theorem State.afterPowerOn_notice (x b : AgentId) :
    (State.afterPowerOn x).notice b = { entries := [], attention := false } := by
  simp [State.afterPowerOn, State.notice]

end Sys2Proof.Machine
end

