-- ==== Sys2Proof/Laws/Primitive.lean ====
section
/-! SUPPORT. Every command and event as a chain of guarded primitive changes. A law of the state is kept by every step
once each primitive keeps it. -/

namespace Sys2Proof.Machine

/-- The changes that commands and events are made of. A constructor's hypotheses say what the spec's checks have
established where the change is made. -/
inductive Primitive : State → State → Prop where
  | port (s : State) (p : PortPins) : Primitive s (s.setPort p)
  | station (s : State) (a : AgentId) (st : Station) : Primitive s (s.setStation a st)
  | control (s : State) (st : Station) : Primitive s (s.setControl st)
  | attention (s : State) (a : AgentId) (on : Bool) :
      Primitive s (s.setNotice a { s.notice a with attention := on })
  | attach (s : State) (a : AgentId) (free : (s.agent a).state = .detached) (quota : (s.agent a).quota ≠ 0) :
      Primitive s (s.setAgent a { s.agent a with state := .attached, held := false })
  | hold (s : State) (a : AgentId) (on : Bool) (attached : (s.agent a).state = .attached) :
      Primitive s (s.setAgent a { s.agent a with held := on })
  | grant (s : State) (own : Option SlotId) (u : UnitId) (i : SlotId) (r : Record) (t : Target) (d : Nat)
      (c : Option Nat) (found : s.record i = some r) (waits : r.standing = .waiting t d c)
      (opened : (s.unit u).state = .opened) (eligible : s.eligible i u = true)
      (fits : s.compatible r.mode u = true) (unmarked : (s.unit u).mark = none ∨ s.holders u = []) :
      Primitive s (s.grant own u i)
  | unitBottom (s : State) (u : UnitId) (a : AgentId) : Primitive s (s.setUnit u { s.unit u with bottom := a })
  | poolBottom (s : State) (p : PoolId) (a : AgentId) : Primitive s (s.setPool p { s.pool p with bottom := a })
  | upgrade (s : State) (u : UnitId) (i : SlotId) (opened : (s.unit u).state = .opened)
      (marked : (s.unit u).mark = some i) (alone : s.holders u = [i]) :
      Primitive s (((s.clearMark u).setMode i .exclusive).post .upgraded i)
  | clearMark (s : State) (u : UnitId) : Primitive s (s.clearMark u)
  | setMark (s : State) (u : UnitId) (i : SlotId) (r : Record) (found : s.record i = some r)
      (holds : r.isHeldOn u = true) (shared : r.mode = .shared) (unmarked : (s.unit u).mark = none) :
      Primitive s (s.setUnit u { s.unit u with mark := some i })
  | upgradeAlone (s : State) (u : UnitId) (i : SlotId) (r : Record) (found : s.record i = some r)
      (holds : r.isHeldOn u = true) (shared : r.mode = .shared) (alone : s.holders u = [i]) :
      Primitive s ((s.clearMarkOf u i).setMode i .exclusive)
  | downgrade (s : State) (u : UnitId) (i : SlotId) (r : Record) (found : s.record i = some r)
      (holds : r.isHeldOn u = true) (exclusive : r.mode = .exclusive) (room : 1 < (s.unit u).config.capacity) :
      Primitive s (s.setMode i .shared)
  | depth (s : State) (i : SlotId) (r : Record) (u : UnitId) (d d' : Nat) (c : Option Nat)
      (found : s.record i = some r) (holds : r.standing = .held u d c) (low : 1 ≤ d') (high : d' ≤ 15 ∨ d' ≤ d) :
      Primitive s (s.writeRecord i (some { r with standing := .held u d' c }))
  | renew (s : State) (i : SlotId) (r : Record) (u : UnitId) (d : Nat) (c : Option Nat) (requested : Nat)
      (found : s.record i = some r) (holds : r.standing = .held u d c) (range : requested ≤ 4095) :
      Primitive s (s.loadRecord i
        (some { r with standing := .held u d (effectiveDuration requested (s.unit u).config.limit) }))
  | remove (s : State) (i : SlotId) (r : Record) (found : s.record i = some r) : Primitive s (s.remove i r)
  | readSpent (s : State) (a : AgentId) (n : Notice) (rest : List Notice) (r : Record)
      (head : (s.notice a).entries = n :: rest) (live : s.handle n.handle.slot = n.handle)
      (found : s.record n.handle.slot = some r) (spent : r.isSpent = true) :
      Primitive s ((s.setNotice a { s.notice a with entries := rest }).remove n.handle.slot r)
  | readEntry (s : State) (a : AgentId) (n : Notice) (rest : List Notice)
      (head : (s.notice a).entries = n :: rest)
      (unspent : s.handle n.handle.slot = n.handle → (s.record n.handle.slot).any Record.isSpent = false) :
      Primitive s (s.setNotice a { s.notice a with entries := rest })
  | spend (s : State) (i : SlotId) (r : Record) (cause : SpentCause) (found : s.record i = some r)
      (attached : s.isAttached r.agent = true) (unspent : r.isSpent = false)
      (fits : r.standing.claim.mayEndAs cause) : Primitive s (s.markSpent i r cause)
  | markRecalled (s : State) (i : SlotId) (r : Record) (u : UnitId) (d : Nat) (c : Option Nat)
      (found : s.record i = some r) (holds : r.standing = .held u d c) (grace : (s.unit u).config.grace ≠ 0) :
      Primitive s (s.markRecalled i r u d)
  | completeDrain (s : State) (u : UnitId) : Primitive s (s.completeDrain u)
  | endWalk (s : State) (a : AgentId) : Primitive s (s.endWalk a)
  | beginWalk (s : State) (a : AgentId) (attached : (s.agent a).state = .attached) : Primitive s (s.beginWalk a)
  | countdown (s : State) (i : SlotId) (r : Record) (c : Nat) (found : s.record i = some r)
      (present : r.standing.countdown = some c) (more : 1 < c) :
      Primitive s (s.writeRecord i (some { r with standing := r.standing.lowered (c - 1) }))
  | timer (s : State) (t : Timer) (source : t.source = s.timer.source) (divider : t.divider = s.timer.divider)
      (count : t.count = s.timer.count ∨ s.timer.source = .internal ∧ (t.count = 0 ∨ t.count < s.timer.divider))
      (reference : t.reference = s.timer.reference ∨ s.timer.source = .pin)
      (inFlight : t.inFlight = s.timer.inFlight ∨ t.inFlight = s.timer.inFlight ++ s.reached ∨
        ∃ i, t.inFlight = dropArrival i s.timer.inFlight) :
      Primitive s (s.setTimer t)
  | setTick (s : State) (source : TickSource) (divider : Nat) (thawed : s.frozen = false) (low : 16 ≤ divider)
      (high : divider ≤ 65536) :
      Primitive s (s.setTimer { s.timer with source := source, divider := divider, count := 0, reference := none })
  | configureUnit (s : State) (u : UnitId) (config : UnitConfig) (thawed : s.frozen = false)
      (offline : (s.unit u).state = .offline)
      (capacity : 1 ≤ config.capacity ∧ config.capacity ≤ 4) (grace : config.grace ≤ 255)
      (limit : ∀ l, config.limit = some l → 1 ≤ l ∧ l ≤ 4095) :
      Primitive s (s.setUnit u { s.unit u with config := config })
  | configurePool (s : State) (p : PoolId) (order : OrderMode) (rotate : Bool) (thawed : s.frozen = false)
      (empty : (s.pool p).queue = []) :
      Primitive s (s.setPool p { s.pool p with order := order, rotate := rotate })
  | ceiling (s : State) (c : Nat) (thawed : s.frozen = false) (range : c ≤ 64)
      (clear : s.ceiling ≤ c ∨ ∀ u : UnitId, c ≤ u.val → u.val < s.ceiling →
        s.occupiedBy u (fun a => !s.clearance a) = false) :
      Primitive s { s with ceiling := c }
  | clearance (s : State) (a : AgentId) (yes : Bool) (thawed : s.frozen = false)
      (clear : yes = true ∨ ∀ u : UnitId, s.ceiling ≤ u.val → s.occupiedBy u (fun b => b == a) = false) :
      Primitive s (s.setAgent a { s.agent a with clearance := yes })
  | quota (s : State) (a : AgentId) (q : Nat) (thawed : s.frozen = false) (range : q ≤ 8)
      (room : s.recordCount a ≤ q) : Primitive s (s.setAgent a { s.agent a with quota := q })
  | openUnit (s : State) (u : UnitId) (closed : (s.unit u).state ≠ .opened) :
      Primitive s (s.setUnit u { s.unit u with state := .opened })
  | startDrain (s : State) (u : UnitId) (opened : (s.unit u).state = .opened) :
      Primitive s (s.setUnit u { s.unit u with state := .draining, mark := none })
  | completions (s : State) (drained : Vector Bool 64) (detached : Vector Bool 16) :
      Primitive s { s with drained := drained, detached := detached }
  | controlAttention (s : State) (on : Bool) : Primitive s { s with controlAttention := on }
  | freeze (s : State) : Primitive s { s with frozen := true }
  | resetLive (s : State) : Primitive s s.cleared
  | hardwareReset (s : State) : Primitive s s.hardwareReset
  | resetRelease (s : State) : Primitive s { s with inReset := false }

/-- A new WAITING record is written into a FREE slot, after every check of ACQUIRE or ACQUIRE_ANY (R31, R38, R49,
R53). -/
inductive Allocation : State → State → Prop where
  | mk (s : State) (i : SlotId) (a : AgentId) (mode : Mode) (t : Target) (requested waitLimit : Nat)
      (free : s.record i = none) (attached : s.isAttached a = true) (duration : requested ≤ 4095)
      (limit : waitLimit ≤ 4095) (room : s.recordCount a < (s.agent a).quota)
      (onUnit : ∀ u, t = .unit u → (s.unit u).state = .opened ∧ s.bandPermits a u = true ∧
        s.holderOf a u = none ∧ s.waitsIn a (s.unit u).queue = false)
      (onPool : ∀ p, t = .pool p → mode = .exclusive ∧ s.waitsIn a (s.pool p).queue = false) :
      Allocation s (s.allocate i a mode t requested waitLimit)

/-- One after another, any number of primitive changes. -/
abbrev Chain : State → State → Prop := Relation.ReflTransGen Primitive

theorem Primitive.chain {s t : State} (h : Primitive s t) : Chain s t := Relation.ReflTransGen.single h

/-- A chain goes on with another. -/
theorem Chain.then {s t w : State} (h : Chain s t) (k : Chain t w) : Chain s w := Relation.ReflTransGen.trans h k

/-- What every primitive keeps, a chain keeps. -/
theorem Chain.keeps {P : State → Prop} (step : ∀ s t, Primitive s t → P s → P t) {s t : State} (h : Chain s t)
    (start : P s) : P t := by
  induction h with
  | refl => exact start
  | tail _ last ih => exact step _ _ last ih

/-- A fold of operations that are each a chain is a chain. -/
theorem Chain.foldl {α : Type} (f : State → α → State) (step : ∀ s x, Chain s (f s x)) (xs : List α) (s : State) :
    Chain s (xs.foldl f s) := by
  induction xs generalizing s with
  | nil => exact .refl
  | cons x xs ih => exact (step s x).then (ih _)

/-! ### The grant passes -/

/-- A grant changes nothing of any unit record but its queue. -/
theorem State.grant_unit_queue (s : State) (own : Option SlotId) (u : UnitId) (i : SlotId) (v : UnitId) :
    ∃ q, (s.grant own u i).unit v = { s.unit v with queue := q } := by
  cases hr : s.record i with
  | none => exact ⟨(s.unit v).queue, by simp only [State.grant, hr]⟩
  | some r =>
    cases hs : r.standing with
    | waiting t d c =>
      rw [s.grant_unit own u i r t d c hr hs v]; split
      · exact ⟨_, rfl⟩
      · exact ⟨_, rfl⟩
    | held _ _ _ => exact ⟨(s.unit v).queue, by simp only [State.grant, hr, hs]⟩
    | recalled _ _ _ => exact ⟨(s.unit v).queue, by simp only [State.grant, hr, hs]⟩
    | spent _ _ => exact ⟨(s.unit v).queue, by simp only [State.grant, hr, hs]⟩

theorem State.grant_state (s : State) (own : Option SlotId) (u : UnitId) (i : SlotId) (v : UnitId) :
    ((s.grant own u i).unit v).state = (s.unit v).state := by
  obtain ⟨q, h⟩ := s.grant_unit_queue own u i v; rw [h]

theorem State.grant_mark (s : State) (own : Option SlotId) (u : UnitId) (i : SlotId) (v : UnitId) :
    ((s.grant own u i).unit v).mark = (s.unit v).mark := by
  obtain ⟨q, h⟩ := s.grant_unit_queue own u i v; rw [h]

/-- An eligible slot holds a WAITING record whose agent may be granted the unit. -/
theorem State.eligible_iff (s : State) (i : SlotId) (u : UnitId) :
    s.eligible i u = true ↔
      ∃ r t d c, s.record i = some r ∧ r.standing = .waiting t d c ∧ s.mayBeGranted r.agent u = true := by
  unfold State.eligible
  cases s.record i with
  | none => simp
  | some r =>
    cases h : r.standing <;>
      simp [Option.any_some, Record.isWaiting, h]

theorem stageBWalk_chain (own : Option SlotId) (u : UnitId) (is : List SlotId) (s : State) (last : Option AgentId)
    (opened : (s.unit u).state = .opened) (unmarked : (s.unit u).mark = none) :
    Chain s (stageBWalk own u is s last).1 := by
  induction is generalizing s last with
  | nil => exact .refl
  | cons i is ih =>
    unfold stageBWalk
    split
    · next he =>
      split
      · next hf =>
        obtain ⟨r, t, d, c, hr, hw, hm⟩ := (s.eligible_iff i u).1 he
        have hc : s.compatible r.mode u = true := by simpa [State.fits, hr] using hf
        exact (Primitive.grant s own u i r t d c hr hw opened he hc (.inl unmarked)).chain.then
          (ih _ _ ((s.grant_state own u i u).trans opened) ((s.grant_mark own u i u).trans unmarked))
      · exact .refl
    · exact ih s last opened unmarked

theorem stageBWalk_unit (own : Option SlotId) (u : UnitId) (is : List SlotId) (s : State) (last : Option AgentId)
    (v : UnitId) : ((stageBWalk own u is s last).1.unit v).state = (s.unit v).state := by
  induction is generalizing s last with
  | nil => rfl
  | cons i is ih =>
    unfold stageBWalk
    split
    · split
      · rw [ih, State.grant_state]
      · rfl
    · exact ih s last

theorem State.stageB_chain (s : State) (own : Option SlotId) (u : UnitId) (opened : (s.unit u).state = .opened)
    (unmarked : (s.unit u).mark = none) : Chain s (s.stageB own u) := by
  have h := stageBWalk_chain own u (s.rank (s.unit u).config.order (s.unit u).bottom (s.unit u).queue) s none
    opened unmarked
  unfold State.stageB
  dsimp only
  split
  · next t e => rw [e] at h; exact h
  · next t a e =>
    rw [e] at h
    split
    · exact h.then (Primitive.unitBottom _ _ _).chain
    · exact h

theorem State.stageB_state (s : State) (own : Option SlotId) (u v : UnitId) :
    ((s.stageB own u).unit v).state = (s.unit v).state := by
  have h := stageBWalk_unit own u (s.rank (s.unit u).config.order (s.unit u).bottom (s.unit u).queue) s none v
  unfold State.stageB
  dsimp only
  split
  · next t e => rw [e] at h; exact h
  · next t a e =>
    rw [e] at h
    split
    · rw [State.unit_setUnit]; split
      · next hv => rw [← h, hv]
      · exact h
    · exact h

theorem State.stageC_chain (s : State) (own : Option SlotId) (u : UnitId) (opened : (s.unit u).state = .opened)
    (free : s.holders u = []) : Chain s (s.stageC own u) := by
  unfold State.stageC
  split
  · exact .refl
  · next p _ =>
    dsimp only
    split
    · exact .refl
    · next i hi =>
      have he := List.find?_some hi
      obtain ⟨r, t, d, c, hr, hw, hm⟩ := (s.eligible_iff i u).1 he
      have hc : s.compatible r.mode u = true := by simp [State.compatible, free]
      have hg := (Primitive.grant s own u i r t d c hr hw opened he hc (.inr free)).chain
      split
      · exact hg
      · split
        · exact hg.then (Primitive.poolBottom _ _ _).chain
        · exact hg

theorem State.unitPass_chain (s : State) (own : Option SlotId) (u : UnitId) : Chain s (s.unitPass own u) := by
  unfold State.unitPass
  split
  · exact .refl
  · exact .refl
  · next opened =>
    split
    · next i hm =>
      split
      · next ha => exact (Primitive.upgrade s u i opened hm ha).chain
      · exact .refl
    · next hm =>
      dsimp only
      have hb := s.stageB_chain own u opened hm
      split
      · next hf =>
        exact hb.then (State.stageC_chain _ own u ((s.stageB_state own u u).trans opened)
          (List.isEmpty_iff.1 hf))
      · exact hb

theorem State.offer_chain (s : State) (own : Option SlotId) (p : PoolId) (u : UnitId) : Chain s (s.offer own p u) := by
  unfold State.offer
  split
  · next h => exact s.stageC_chain own u h.2.1 (List.isEmpty_iff.1 h.2.2)
  · exact .refl

theorem State.poolPass_chain (s : State) (own : Option SlotId) (p : PoolId) : Chain s (s.poolPass own p) :=
  Chain.foldl _ (fun s u => s.offer_chain own p u) _ s

theorem State.passOn_chain (s : State) (own : Option SlotId) (t : Target) : Chain s (s.passOn own t) := by
  cases t with
  | unit u => exact s.unitPass_chain own u
  | pool p => exact s.poolPass_chain own p

theorem State.unitPasses_chain (s : State) (us : List UnitId) : Chain s (s.unitPasses us) :=
  Chain.foldl _ (fun s u => s.unitPass_chain none u) _ s

theorem State.poolPasses_chain (s : State) (ps : List PoolId) : Chain s (s.poolPasses ps) :=
  Chain.foldl _ (fun s p => s.poolPass_chain none p) _ s

/-! ### Departures, recall and time -/

theorem State.afterDeparture_chain (s : State) (r : Record) : Chain s (s.afterDeparture r) := by
  unfold State.afterDeparture
  split
  · exact s.passOn_chain none _
  · exact (s.unitPass_chain none _).then (Primitive.completeDrain _ _).chain
  · exact (s.unitPass_chain none _).then (Primitive.completeDrain _ _).chain
  · exact .refl

theorem State.retire_chain (s : State) (i : SlotId) : Chain s (s.retire i) := by
  unfold State.retire
  split
  · exact .refl
  · next r hr => exact (Primitive.remove s i r hr).chain.then (State.afterDeparture_chain _ r)

theorem State.spend_chain (s : State) (i : SlotId) (cause : SpentCause)
    (fits : ∀ r, s.record i = some r → r.isSpent = false ∧ r.standing.claim.mayEndAs cause) :
    Chain s (s.spend i cause) := by
  unfold State.spend
  split
  · exact .refl
  · next r hr =>
    split
    · next ha =>
      exact (Primitive.spend s i r cause hr ha (fits r hr).1 (fits r hr).2).chain.then
        (State.afterDeparture_chain _ r)
    · exact s.retire_chain i

theorem State.recall_chain (s : State) (i : SlotId) : Chain s (s.recall i) := by
  unfold State.recall
  split
  · exact .refl
  · next r hr =>
    split
    · next u d c hs =>
      split
      · refine s.spend_chain i _ fun r' hr' => ?_
        obtain rfl : r = r' := Option.some.inj (hr.symm.trans hr')
        simp [Record.isSpent, hs, Standing.claim, Claim.mayEndAs]
      · next hg =>
        have h := (Primitive.markRecalled s i r u d c hr hs hg).chain
        split
        · exact h.then (State.unitPass_chain _ none u)
        · exact h
    · exact .refl
    · exact .refl
    · exact .refl

theorem State.recallAll_chain (s : State) (is : List SlotId) : Chain s (s.recallAll is) :=
  Chain.foldl _ (fun s i => s.recall_chain i) _ s

theorem State.withdraw_chain (s : State) (i : SlotId) : Chain s (s.withdraw i) := by
  unfold State.withdraw
  split
  · next h =>
    refine s.spend_chain i _ fun r hr => ?_
    rw [hr, Option.any_some] at h
    cases hs : r.standing with
    | waiting t d c => cases t <;> simp [Record.isSpent, hs, Standing.claim, Claim.mayEndAs]
    | held u d c => simp [Record.isWaiting, hs] at h
    | recalled u d c => simp [Record.isWaiting, hs] at h
    | spent k c => simp [Record.isWaiting, hs] at h
  · exact .refl

theorem State.withdrawAll_chain (s : State) (is : List SlotId) : Chain s (s.withdrawAll is) :=
  Chain.foldl _ (fun s i => s.withdraw_chain i) _ s

theorem State.lowerCountdown_chain (s : State) (i : SlotId) : Chain s (s.lowerCountdown i) := by
  unfold State.lowerCountdown
  split
  · exact .refl
  · next r hr =>
    split
    · next c cause hc he =>
      split
      · refine s.spend_chain i _ fun r' hr' => ?_
        obtain rfl : r = r' := Option.some.inj (hr.symm.trans hr')
        cases hs : r.standing with
        | waiting t d c =>
          rw [hs] at he; cases he
          cases t <;> simp [Record.isSpent, hs, Standing.claim, Claim.mayEndAs]
        | held u d c => rw [hs] at he; cases he; simp [Record.isSpent, hs, Standing.claim, Claim.mayEndAs]
        | recalled u d c => rw [hs] at he; cases he; simp [Record.isSpent, hs, Standing.claim, Claim.mayEndAs]
        | spent k c => rw [hs] at he; cases he
      · next hlt => exact (Primitive.countdown s i r c hr hc (by omega)).chain
    · exact .refl

theorem State.takeTick_chain (s : State) : Chain s s.takeTick :=
  (Primitive.timer s { s.timer with inFlight := s.timer.inFlight ++ s.reached } rfl rfl (.inl rfl) (.inl rfl)
    (.inr (.inl rfl))).chain

theorem State.arrive_chain (s : State) (i : SlotId) : Chain s (s.arrive i) := by
  have h : Chain s (s.arrived i) :=
    (Primitive.timer s { s.timer with inFlight := dropArrival i s.timer.inFlight } rfl rfl (.inl rfl) (.inl rfl)
      (.inr (.inr ⟨i, rfl⟩))).chain
  unfold State.arrive
  split
  · exact .refl
  · split
    · exact h
    · exact h.then (State.lowerCountdown_chain _ i)

theorem State.clockEdge_chain (s : State) (tkin : Bool) : Chain s (s.clockEdge tkin) := by
  unfold State.clockEdge
  dsimp only
  split
  · exact .refl
  · next hs =>
    split
    · exact (Primitive.timer s { s.timer with count := 0 } rfl rfl (.inr ⟨hs, .inl rfl⟩) (.inl rfl)
        (.inl rfl)).chain.then (State.takeTick_chain _)
    · next hlt =>
      exact (Primitive.timer s { s.timer with count := s.timer.count + 1 } rfl rfl
        (.inr ⟨hs, .inr (by simpa using hlt)⟩) (.inl rfl) (.inl rfl)).chain
  · next hs =>
    have h := (Primitive.timer s { s.timer with reference := some tkin } rfl rfl (.inl rfl) (.inr hs)
      (.inl rfl)).chain
    split
    · exact h.then (State.takeTick_chain _)
    · exact h

end Sys2Proof.Machine
end

