-- ==== Sys2Proof/Laws/Exec.lean ====
section
/-! SUPPORT. Every command and event answers a next state, and is a chain of primitive changes with at most one
allocation between them; POWER_ON alone starts the part afresh. -/

namespace Sys2Proof.Machine

/-- A chain of primitive changes, at most one allocation, and a chain again. -/
def Steps (s t : State) : Prop := ∃ p q, Chain s p ∧ (p = q ∨ Allocation p q) ∧ Chain q t

theorem Chain.steps {s t : State} (h : Chain s t) : Steps s t := ⟨t, t, h, .inl rfl, .refl⟩

theorem Steps.after {s t w : State} (h : Chain s t) (k : Steps t w) : Steps s w := by
  obtain ⟨p, q, h1, h2, h3⟩ := k
  exact ⟨p, q, h.then h1, h2, h3⟩

/-- What every primitive and every allocation keeps, a command keeps. -/
theorem Steps.keeps {P : State → Prop} (step : ∀ s t, Primitive s t → P s → P t)
    (allocate : ∀ s t, Allocation s t → P s → P t) {s t : State} (h : Steps s t) (start : P s) : P t := by
  obtain ⟨p, q, h1, h2, h3⟩ := h
  have hp := h1.keeps step start
  rcases h2 with h2 | h2
  · exact h3.keeps step (h2 ▸ hp)
  · exact h3.keeps step (allocate _ _ h2 hp)

theorem State.answer_chain (s : State) (a : AgentId) (ans : Answer) : Chain s (s.answer a ans) :=
  (Primitive.station s a _).chain

theorem State.answerControl_chain (s : State) (ans : Answer) : Chain s (s.answerControl ans) :=
  (Primitive.control s _).chain

theorem State.quiet_chain (s : State) : Chain s s.quiet := (Primitive.port s _).chain

/-! ### How a station takes a command -/

theorem atAgentStation_steps (code : Word) (aid : AgentId) (body : State → State) (s : State)
    (h : ∀ s, Steps s (body s)) : ∃ t, atAgentStation code aid body s = .next t ∧ Steps s t := by
  unfold atAgentStation
  dsimp only
  split
  · exact ⟨_, rfl, s.quiet_chain.steps⟩
  · exact ⟨_, rfl, .after (s.quiet_chain.then (Primitive.station _ aid _).chain) (h _)⟩

theorem atControlStation_steps (code : Word) (aid : AgentId) (body : State → State) (s : State)
    (h : ∀ s, Chain s (body s)) : ∃ t, atControlStation code aid body s = .next t ∧ Steps s t := by
  unfold atControlStation
  dsimp only
  split
  · exact ⟨_, rfl, s.quiet_chain.steps⟩
  · split
    · exact ⟨_, rfl, ((s.quiet_chain.then (Primitive.control _ _).chain).then (h _)).steps⟩
    · exact ⟨_, rfl, (s.quiet_chain.then (Primitive.port _ _).chain).steps⟩

theorem asEvent_steps (body : State → State) (s : State) (h : ∀ s, Chain s (body s)) :
    ∃ t, asEvent body s = .next t ∧ Steps s t := by
  unfold asEvent
  dsimp only
  split
  · exact ⟨_, rfl, s.quiet_chain.steps⟩
  · exact ⟨_, rfl, (s.quiet_chain.then (h _)).steps⟩

theorem State.withHandle_chain (s : State) (aid : AgentId) (body : SlotId → Record → State)
    (h : ∀ i r, s.record i = some r → Chain s (body i r)) : Chain s (s.withHandle aid body) := by
  unfold State.withHandle
  split
  · exact s.answer_chain _ _
  · split
    · exact s.answer_chain _ _
    · next i r hc =>
      refine h i r ?_
      unfold State.checkHandle at hc
      split at hc
      · cases hc
      · split at hc
        · cases hc
        · split at hc
          · next hr _ => cases hc; exact hr
          · cases hc

/-! ### Requests -/

theorem State.requestSlot_create (s : State) (aid : AgentId) (m m' : Mode) (t t' : Target) (d d' w w' : Nat)
    (i : SlotId) (h : s.requestSlot aid m t d w = .create i m' t' d' w') :
    s.record i = none ∧ s.recordCount aid < (s.agent aid).quota ∧ m = m' ∧ t = t' ∧ d = d' ∧ w = w' := by
  unfold State.requestSlot at h
  split at h
  · cases h
  · next hq =>
    split at h
    · cases h
    · next j hj =>
      cases h
      exact ⟨by simpa using List.find?_some hj, by omega, rfl, rfl, rfl, rfl⟩

theorem State.requestSlot_nested (s : State) (aid : AgentId) (m : Mode) (t : Target) (d w : Nat) (i : SlotId) :
    s.requestSlot aid m t d w ≠ .nested i := by
  unfold State.requestSlot
  split
  · simp
  · split <;> simp

theorem unitOf_eq {n : Nat} {u : UnitId} (h : unitOf n = some u) : u.val = n := by
  unfold unitOf at h; split at h
  · cases h; rfl
  · cases h

theorem State.acquireOpen_create (s : State) (aid : AgentId) (u : UnitId) (m m' : Mode) (t : Target)
    (d d' w w' : Nat) (i : SlotId) (h : s.acquireOpen aid u m d w = .create i m' t d' w') :
    s.record i = none ∧ s.recordCount aid < (s.agent aid).quota ∧ t = .unit u ∧ m = m' ∧ d = d' ∧ w = w' ∧
      s.holderOf aid u = none ∧ s.waitsIn aid (s.unit u).queue = false := by
  unfold State.acquireOpen at h
  dsimp only at h
  split at h
  · cases h
  split at h
  · cases h
  split at h
  · split at h
    · split at h <;> cases h
    · cases h
  · next hn =>
    split at h
    · cases h
    · next hw =>
      obtain ⟨h1, h2, h3, h4, h5, h6⟩ := s.requestSlot_create _ _ _ _ _ _ _ _ _ _ h
      exact ⟨h1, h2, h4.symm, h3, h5, h6, hn, by simpa using hw⟩

theorem State.acquireCase_create (s : State) (aid : AgentId) (m : Mode) (t : Target) (d w : Nat) (i : SlotId)
    (h : s.acquireCase aid = .create i m t d w) : Allocation s (s.allocate i aid m t d w) := by
  unfold State.acquireCase at h
  dsimp only at h
  split at h
  · cases h
  · next ha =>
    split at h
    · cases h
    · next mode _ =>
      split at h
      · cases h
      · next hr =>
        split at h
        · cases h
        · next u hu =>
          split at h
          · cases h
          · cases h
          · next ho =>
            split at h
            · next hb =>
              obtain ⟨h1, h2, rfl, rfl, rfl, rfl, h7, h8⟩ := s.acquireOpen_create _ _ _ _ _ _ _ _ _ _ h
              refine .mk s i aid _ _ _ _ h1 (by simpa using ha) (by omega) (by omega) h2 ?_ ?_
              · rintro v ⟨⟩; exact ⟨ho, hb, h7, h8⟩
              · rintro p ⟨⟩
            · cases h

theorem State.acquireCase_nested (s : State) (aid : AgentId) (i : SlotId)
    (h : s.acquireCase aid = .nested i) :
    ∃ r u d c, s.record i = some r ∧ r.standing = .held u d c ∧ d < 15 := by
  unfold State.acquireCase at h
  dsimp only at h
  split at h
  · cases h
  split at h
  · cases h
  split at h
  · cases h
  split at h
  · cases h
  split at h
  · cases h
  · cases h
  split at h
  · next u _ _ _ =>
    unfold State.acquireOpen at h
    dsimp only at h
    split at h
    · cases h
    split at h
    · cases h
    split at h
    · next j hj =>
      split at h
      · next hst =>
        split at h
        · cases h
        · next hd =>
          cases h
          cases hr : s.record i with
          | none => rw [hr] at hst; cases hst
          | some r =>
            rw [hr] at hst
            exact ⟨r, _, _, _, rfl, Option.some.inj hst, by omega⟩
      · cases h
    · split at h
      · cases h
      · exact absurd h (s.requestSlot_nested _ _ _ _ _ _)
  · cases h

theorem State.acquireAnyCase_create (s : State) (aid : AgentId) (m : Mode) (t : Target) (d w : Nat) (i : SlotId)
    (h : s.acquireAnyCase aid = .create i m t d w) : Allocation s (s.allocate i aid m t d w) := by
  unfold State.acquireAnyCase at h
  dsimp only at h
  split at h
  · cases h
  · next ha =>
    split at h
    · cases h
    · next hr =>
      split at h
      · cases h
      · next p hp =>
        split at h
        · cases h
        split at h
        · cases h
        · next hw =>
          obtain ⟨h1, h2, h3, h4, h5, h6⟩ := s.requestSlot_create _ _ _ _ _ _ _ _ _ _ h
          subst h3 h4 h5 h6
          refine .mk s i aid _ _ _ _ h1 (by simpa using ha) (by omega) (by omega) h2 ?_ ?_
          · rintro v ⟨⟩
          · rintro q ⟨⟩; exact ⟨rfl, by simpa using hw⟩

theorem State.acquireAnyCase_nested (s : State) (aid : AgentId) (i : SlotId) : s.acquireAnyCase aid ≠ .nested i := by
  unfold State.acquireAnyCase
  dsimp only
  split
  · simp
  split
  · simp
  split
  · simp
  split
  · simp
  split
  · simp
  exact s.requestSlot_nested _ _ _ _ _ _

theorem State.answerRequest_chain (s : State) (aid : AgentId) (i : SlotId) (t : Target) (w : Nat) :
    Chain s (s.answerRequest aid i t w) := by
  unfold State.answerRequest
  split
  · exact s.answer_chain _ _
  · split
    · exact s.answer_chain _ _
    · split
      · exact (s.retire_chain i).then (State.answer_chain _ _ _)
      · exact s.answer_chain _ _

theorem State.deepen_chain (s : State) (i : SlotId) (r : Record) (u : UnitId) (d : Nat) (c : Option Nat)
    (found : s.record i = some r) (holds : r.standing = .held u d c) (low : d < 15) : Chain s (s.deepen i) := by
  have h := (Primitive.depth s i r u d (d + 1) c found holds (by omega) (.inl (by omega))).chain
  unfold State.deepen
  rw [found]
  dsimp only
  rw [holds]
  exact h

theorem State.takeRequest_steps (s : State) (aid : AgentId) (c : RequestCase)
    (create : ∀ i m t d w, c = .create i m t d w → Allocation s (s.allocate i aid m t d w))
    (nested : ∀ i, c = .nested i → ∃ r u d k, s.record i = some r ∧ r.standing = .held u d k ∧ d < 15) :
    Steps s (s.takeRequest aid c) := by
  unfold State.takeRequest
  split
  · exact (s.answer_chain _ _).steps
  · next i =>
    obtain ⟨r, u, d, k, h1, h2, h3⟩ := nested i rfl
    have h := s.deepen_chain i r u d k h1 h2 h3
    dsimp only
    split
    · exact h.steps
    · exact (h.then (State.answer_chain _ _ _)).steps
  · next i m t d w =>
    exact ⟨s, _, .refl, .inr (create i m t d w rfl),
      (State.passOn_chain _ _ _).then (State.answerRequest_chain _ _ _ _ _)⟩

/-! ### Commands of an agent station -/

theorem execAttach_steps (aid : AgentId) (s : State) : ∃ t, execAttach aid s = .next t ∧ Steps s t := by
  refine atAgentStation_steps _ _ _ s fun s => Chain.steps ?_
  dsimp only
  split
  · exact s.answer_chain _ _
  · exact s.answer_chain _ _
  · next hd =>
    split
    · exact s.answer_chain _ _
    · next hq =>
      exact ((Primitive.attach s aid hd hq).chain.then (Primitive.attention _ aid true).chain).then
        (State.answer_chain _ _ _)

theorem execDetach_steps (aid : AgentId) (s : State) : ∃ t, execDetach aid s = .next t ∧ Steps s t := by
  refine atAgentStation_steps _ _ _ s fun s => Chain.steps ?_
  split
  · next h => exact (Primitive.beginWalk s aid (by simpa [State.isAttached] using h)).chain
  · exact s.answer_chain _ _

theorem execAcquire_steps (aid : AgentId) (s : State) : ∃ t, execAcquire aid s = .next t ∧ Steps s t :=
  atAgentStation_steps _ _ _ s fun s =>
    s.takeRequest_steps aid _ (fun _ _ _ _ _ h => s.acquireCase_create _ _ _ _ _ _ h)
      (fun i h => s.acquireCase_nested aid i h)

theorem execAcquireAny_steps (aid : AgentId) (s : State) : ∃ t, execAcquireAny aid s = .next t ∧ Steps s t :=
  atAgentStation_steps _ _ _ s fun s =>
    s.takeRequest_steps aid _ (fun _ _ _ _ _ h => s.acquireAnyCase_create _ _ _ _ _ _ h)
      (fun i h => absurd h (s.acquireAnyCase_nested aid i))

theorem depthLeft_le (full : Bool) (d : Nat) : (if full = true then 0 else d - 1) ≤ d := by split <;> omega

theorem execRelease_steps (aid : AgentId) (s : State) : ∃ t, execRelease aid s = .next t ∧ Steps s t := by
  refine atAgentStation_steps _ _ _ s fun s => Chain.steps (s.withHandle_chain _ _ fun i r hr => ?_)
  unfold State.releaseRecord
  split
  · exact s.answer_chain _ _
  · next full _ =>
    dsimp only
    split
    · exact s.answer_chain _ _
    · next u d c hs =>
      by_cases hl : (if full = true then 0 else d - 1) = 0
      · rw [if_pos hl]; exact (s.retire_chain i).then (State.answer_chain _ _ _)
      · rw [if_neg hl]
        exact (Primitive.depth s i r u d _ c hr hs (Nat.one_le_iff_ne_zero.2 hl)
          (.inr (depthLeft_le full d))).chain.then (State.answer_chain _ _ _)
    · exact (s.retire_chain i).then (State.answer_chain _ _ _)
    · exact (s.retire_chain i).then (State.answer_chain _ _ _)

theorem execRenew_steps (aid : AgentId) (s : State) : ∃ t, execRenew aid s = .next t ∧ Steps s t := by
  refine atAgentStation_steps _ _ _ s fun s => Chain.steps (s.withHandle_chain _ _ fun i r hr => ?_)
  unfold State.renewRecord
  dsimp only
  split
  · exact s.answer_chain _ _
  · next hd =>
    split
    · exact s.answer_chain _ _
    · next u d c hs =>
      exact (Primitive.renew s i r u d c _ hr hs (by omega)).chain.then (State.answer_chain _ _ _)
    · exact s.answer_chain _ _
    · exact s.answer_chain _ _

theorem Record.isHeldOn_of {r : Record} {u : UnitId} {d : Nat} {c : Option Nat} (h : r.standing = .held u d c) :
    r.isHeldOn u = true := by simp [Record.isHeldOn, h]

theorem State.upgradeShared_chain (s : State) (aid : AgentId) (i : SlotId) (r : Record) (u : UnitId)
    (found : s.record i = some r) (holds : r.isHeldOn u = true) (shared : r.mode = .shared) :
    Chain s (s.upgradeShared aid i r u) := by
  unfold State.upgradeShared
  dsimp only
  split
  · next h => exact (Primitive.upgradeAlone s u i r found holds shared h).chain.then (State.answer_chain _ _ _)
  · split
    · next h => exact (Primitive.setMark s u i r found holds shared h).chain.then (State.answer_chain _ _ _)
    · split
      · exact s.answer_chain _ _
      · exact s.answer_chain _ _

theorem execUpgrade_steps (aid : AgentId) (s : State) : ∃ t, execUpgrade aid s = .next t ∧ Steps s t := by
  refine atAgentStation_steps _ _ _ s fun s => Chain.steps (s.withHandle_chain _ _ fun i r hr => ?_)
  unfold State.upgradeRecord
  split
  · exact s.answer_chain _ _
  · next u d c hs =>
    split
    · exact s.answer_chain _ _
    · next hm => exact s.upgradeShared_chain aid i r u hr (Record.isHeldOn_of hs) hm
  · exact s.answer_chain _ _
  · exact s.answer_chain _ _

theorem execDowngrade_steps (aid : AgentId) (s : State) : ∃ t, execDowngrade aid s = .next t ∧ Steps s t := by
  refine atAgentStation_steps _ _ _ s fun s => Chain.steps (s.withHandle_chain _ _ fun i r hr => ?_)
  unfold State.downgradeRecord
  split
  · exact s.answer_chain _ _
  · next u d c hs =>
    split
    · exact s.answer_chain _ _
    · next hm =>
      split
      · exact s.answer_chain _ _
      · next hc =>
        exact ((Primitive.downgrade s u i r hr (Record.isHeldOn_of hs) hm (by omega)).chain.then
          (State.unitPass_chain _ none u)).then (State.answer_chain _ _ _)
  · exact s.answer_chain _ _
  · exact s.answer_chain _ _

theorem execCancel_steps (aid : AgentId) (s : State) : ∃ t, execCancel aid s = .next t ∧ Steps s t := by
  refine atAgentStation_steps _ _ _ s fun s => Chain.steps (s.withHandle_chain _ _ fun i r hr => ?_)
  unfold State.cancelRecord
  split
  · exact (s.retire_chain i).then (State.answer_chain _ _ _)
  · split
    · exact ((Primitive.clearMark s _).chain.then (State.unitPass_chain _ none _)).then (State.answer_chain _ _ _)
    · exact s.answer_chain _ _
  · exact s.answer_chain _ _
  · exact (s.retire_chain i).then (State.answer_chain _ _ _)

theorem execQueryLease_steps (aid : AgentId) (s : State) : ∃ t, execQueryLease aid s = .next t ∧ Steps s t :=
  atAgentStation_steps _ _ _ s fun s => Chain.steps (s.withHandle_chain _ _ fun _ _ _ => s.answer_chain _ _)

theorem State.readUnit_chain (s : State) (aid : AgentId) (f : UnitId → Answer) : Chain s (s.readUnit aid f) := by
  unfold State.readUnit
  split
  · exact s.answer_chain _ _
  · split <;> exact s.answer_chain _ _

theorem execQueryUnit_steps (aid : AgentId) (s : State) : ∃ t, execQueryUnit aid s = .next t ∧ Steps s t :=
  atAgentStation_steps _ _ _ s fun s => Chain.steps (s.readUnit_chain _ _)

theorem execProbe_steps (aid : AgentId) (s : State) : ∃ t, execProbe aid s = .next t ∧ Steps s t :=
  atAgentStation_steps _ _ _ s fun s => Chain.steps (s.readUnit_chain _ _)

theorem State.readNotice_chain (s : State) (aid : AgentId) (n : Notice) (rest : List Notice)
    (head : (s.notice aid).entries = n :: rest) : Chain s (s.readNotice aid n rest) := by
  unfold State.readNotice
  dsimp only
  refine Chain.then ?_ (State.answer_chain _ _ _)
  simp only [State.setNotice_handle, State.setNotice_record]
  by_cases h : (s.handle n.handle.slot == n.handle && (s.record n.handle.slot).any Record.isSpent) = true
  · rw [if_pos h]
    rw [Bool.and_eq_true, beq_iff_eq] at h
    obtain ⟨h1, h2⟩ := h
    obtain ⟨r, hr, hs⟩ := (Option.any_eq_true _ _).1 h2
    unfold State.retire
    rw [State.setNotice_record, hr]
    dsimp only
    refine (Primitive.readSpent s aid n rest r head h1 hr hs).chain.then ?_
    exact State.afterDeparture_chain _ r
  · rw [if_neg h]
    refine (Primitive.readEntry s aid n rest head fun h1 => ?_).chain
    simpa [h1] using h

theorem execNextNotice_steps (aid : AgentId) (s : State) : ∃ t, execNextNotice aid s = .next t ∧ Steps s t := by
  refine atAgentStation_steps _ _ _ s fun s => Chain.steps ?_
  split
  · exact s.answer_chain _ _
  · split
    · exact s.answer_chain _ _
    · next n rest h => exact s.readNotice_chain aid n rest h

theorem execSetAttention_steps (aid : AgentId) (s : State) : ∃ t, execSetAttention aid s = .next t ∧ Steps s t := by
  refine atAgentStation_steps _ _ _ s fun s => Chain.steps ?_
  split
  · exact s.answer_chain _ _
  · split
    · exact s.answer_chain _ _
    · exact (Primitive.attention s aid _).chain.then (State.answer_chain _ _ _)

/-! ### Commands of the control station -/

theorem unitConfigOf_range {st : Station} {c : UnitConfig} (h : unitConfigOf st = some c) :
    (1 ≤ c.capacity ∧ c.capacity ≤ 4) ∧ c.grace ≤ 255 ∧ ∀ l, c.limit = some l → 1 ≤ l ∧ l ≤ 4095 := by
  unfold unitConfigOf at h
  simp only [Option.bind_eq_bind, Option.bind_eq_some_iff, Option.pure_def, Option.some.injEq] at h
  obtain ⟨_, _, k, hk, _, _, _, _, g, hg, l, hl, rfl⟩ := h
  refine ⟨?_, ?_, ?_⟩
  · unfold capacityOf at hk; split at hk
    · cases hk; assumption
    · cases hk
  · unfold graceOf at hg; split at hg
    · cases hg; assumption
    · cases hg
  · intro n hn
    dsimp only at hn
    unfold limitOf at hl; split at hl
    · cases hl; cases hn
    · split at hl
      · cases hl; cases hn; omega
      · cases hl

theorem execConfigureUnit_steps (aid : AgentId) (s : State) : ∃ t, execConfigureUnit aid s = .next t ∧ Steps s t := by
  refine atControlStation_steps _ _ _ s fun s => ?_
  split
  · exact s.answerControl_chain _
  · next hf =>
    split
    · exact s.answerControl_chain _
    · split
      · exact s.answerControl_chain _
      · next config hc =>
        split
        · exact s.answerControl_chain _
        · next ho =>
          split
          · exact s.answerControl_chain _
          · obtain ⟨h1, h2, h3⟩ := unitConfigOf_range hc
            exact (Primitive.configureUnit s _ config (by simpa using hf) (by simpa using ho) h1 h2 h3).chain.then
              (State.answerControl_chain _ _)

theorem execConfigurePool_steps (aid : AgentId) (s : State) : ∃ t, execConfigurePool aid s = .next t ∧ Steps s t := by
  refine atControlStation_steps _ _ _ s fun s => ?_
  split
  · exact s.answerControl_chain _
  · next hf =>
    split
    · exact s.answerControl_chain _
    · split
      · exact s.answerControl_chain _
      · split
        · exact s.answerControl_chain _
        · next hq =>
          exact (Primitive.configurePool s _ _ _ (by simpa using hf) (by simpa using hq)).chain.then
            (State.answerControl_chain _ _)

theorem mem_unitsFrom {low high : Nat} {u : UnitId} : u ∈ unitsFrom low high ↔ low ≤ u.val ∧ u.val < high := by
  simp [unitsFrom, allUnits]

theorem execSetBand_steps (aid : AgentId) (s : State) : ∃ t, execSetBand aid s = .next t ∧ Steps s t := by
  refine atControlStation_steps _ _ _ s fun s => ?_
  split
  · exact s.answerControl_chain _
  · next hf =>
    dsimp only
    split
    · exact s.answerControl_chain _
    · next hc =>
      unfold State.setCeiling
      split
      · next hle =>
        exact (((Primitive.ceiling s _ (by simpa using hf) (by omega) (.inl hle)).chain.then
          (State.unitPasses_chain _ _)).then (State.poolPasses_chain _ _)).then (State.answerControl_chain _ _)
      · split
        · exact s.answerControl_chain _
        · next hn =>
          refine (Primitive.ceiling s _ (by simpa using hf) (by omega) (.inr fun u h1 h2 => ?_)).chain.then
            (State.answerControl_chain _ _)
          simpa using (List.find?_eq_none.1 hn) u (mem_unitsFrom.2 ⟨h1, h2⟩)

theorem execSetClearance_steps (aid : AgentId) (s : State) : ∃ t, execSetClearance aid s = .next t ∧ Steps s t := by
  refine atControlStation_steps _ _ _ s fun s => ?_
  split
  · exact s.answerControl_chain _
  · next hf =>
    split
    · exact s.answerControl_chain _
    · split
      · exact s.answerControl_chain _
      · next yes _ =>
        split
        · exact s.answerControl_chain _
        · unfold State.writeClearance
          dsimp only
          split
          · exact s.answerControl_chain _
          · split
            · next hy =>
              exact ((Primitive.clearance s _ yes (by simpa using hf) (.inl hy)).chain.then
                (State.poolPasses_chain _ _)).then (State.answerControl_chain _ _)
            · split
              · exact s.answerControl_chain _
              · next hn =>
                refine (Primitive.clearance s _ yes (by simpa using hf) (.inr fun u h1 => ?_)).chain.then
                  (State.answerControl_chain _ _)
                simpa using (List.find?_eq_none.1 hn) u (mem_unitsFrom.2 ⟨h1, u.isLt⟩)

theorem execSetQuota_steps (aid : AgentId) (s : State) : ∃ t, execSetQuota aid s = .next t ∧ Steps s t := by
  refine atControlStation_steps _ _ _ s fun s => ?_
  split
  · exact s.answerControl_chain _
  · next hf =>
    split
    · exact s.answerControl_chain _
    · dsimp only
      split
      · exact s.answerControl_chain _
      · split
        · exact s.answerControl_chain _
        · exact (Primitive.quota s _ _ (by simpa using hf) (by omega) (by omega)).chain.then
            (State.answerControl_chain _ _)

theorem execSetTick_steps (aid : AgentId) (s : State) : ∃ t, execSetTick aid s = .next t ∧ Steps s t := by
  refine atControlStation_steps _ _ _ s fun s => ?_
  split
  · exact s.answerControl_chain _
  · next hf =>
    split
    · exact s.answerControl_chain _
    · next src d h =>
      unfold tickSetupOf at h
      simp only [Option.bind_eq_bind, Option.bind_eq_some_iff] at h
      obtain ⟨x, _, h⟩ := h
      split at h
      · next hr =>
        cases h
        exact (Primitive.setTick s _ _ (by simpa using hf) hr.1 hr.2).chain.then (State.answerControl_chain _ _)
      · cases h

theorem execOpenUnit_steps (aid : AgentId) (s : State) : ∃ t, execOpenUnit aid s = .next t ∧ Steps s t := by
  refine atControlStation_steps _ _ _ s fun s => ?_
  split
  · exact s.answerControl_chain _
  · next u _ =>
    split
    · exact s.answerControl_chain _
    · next ho =>
      have hn : (s.unit u).state ≠ .opened := by
        rw [not_not.1 ho]; decide
      exact ((Primitive.openUnit s u hn).chain.then (State.unitPass_chain _ none u)).then
        (State.answerControl_chain _ _)

theorem State.drain_chain (s : State) (u : UnitId) (opened : (s.unit u).state = .opened) : Chain s (s.drain u) :=
  ((((Primitive.startDrain s u opened).chain.then (State.withdrawAll_chain _ _)).then
    (State.recallAll_chain _ _)).then (Primitive.completeDrain _ u).chain).then (State.answerControl_chain _ _)

theorem execDrainUnit_steps (aid : AgentId) (s : State) : ∃ t, execDrainUnit aid s = .next t ∧ Steps s t := by
  refine atControlStation_steps _ _ _ s fun s => ?_
  split
  · exact s.answerControl_chain _
  · split
    · next h => exact s.drain_chain _ h
    · exact s.answerControl_chain _

theorem execRestoreUnit_steps (aid : AgentId) (s : State) : ∃ t, execRestoreUnit aid s = .next t ∧ Steps s t := by
  refine atControlStation_steps _ _ _ s fun s => ?_
  split
  · exact s.answerControl_chain _
  · next u _ =>
    split
    · next hd =>
      have hn : (s.unit u).state ≠ .opened := by rw [hd]; decide
      exact ((Primitive.openUnit s u hn).chain.then (State.unitPass_chain _ none u)).then
        (State.answerControl_chain _ _)
    · exact s.answerControl_chain _

theorem execRecallLease_steps (aid : AgentId) (s : State) : ∃ t, execRecallLease aid s = .next t ∧ Steps s t := by
  refine atControlStation_steps _ _ _ s fun s => ?_
  split
  · exact s.answerControl_chain _
  · split
    · exact s.answerControl_chain _
    · unfold State.recallRecord
      dsimp only
      split
      · exact s.answerControl_chain _
      · exact s.answerControl_chain _
      · exact (s.recall_chain _).then (State.answerControl_chain _ _)
      · exact s.answerControl_chain _

theorem execRecallUnit_steps (aid : AgentId) (s : State) : ∃ t, execRecallUnit aid s = .next t ∧ Steps s t := by
  refine atControlStation_steps _ _ _ s fun s => ?_
  split
  · exact s.answerControl_chain _
  · exact (s.recallAll_chain _).then (State.answerControl_chain _ _)

theorem State.onAttachedAgent_chain (s : State) (body : AgentId → State)
    (h : ∀ a, (s.agent a).state = .attached → Chain s (body a)) : Chain s (s.onAttachedAgent body) := by
  unfold State.onAttachedAgent
  split
  · exact s.answerControl_chain _
  · split
    · exact s.answerControl_chain _
    · exact s.answerControl_chain _
    · next hs => exact h _ hs

theorem execHoldAgent_steps (aid : AgentId) (s : State) : ∃ t, execHoldAgent aid s = .next t ∧ Steps s t := by
  refine atControlStation_steps _ _ _ s fun s => s.onAttachedAgent_chain _ fun a ha => ?_
  split
  · exact s.answerControl_chain _
  · exact ((Primitive.hold s a true ha).chain.then (State.unitPasses_chain _ _)).then (State.answerControl_chain _ _)

theorem execResumeAgent_steps (aid : AgentId) (s : State) : ∃ t, execResumeAgent aid s = .next t ∧ Steps s t := by
  refine atControlStation_steps _ _ _ s fun s => s.onAttachedAgent_chain _ fun a ha => ?_
  split
  · exact (((Primitive.hold s a false ha).chain.then (State.unitPasses_chain _ _)).then
      (State.poolPasses_chain _ _)).then (State.answerControl_chain _ _)
  · exact s.answerControl_chain _

theorem execDetachAgent_steps (aid : AgentId) (s : State) : ∃ t, execDetachAgent aid s = .next t ∧ Steps s t := by
  refine atControlStation_steps _ _ _ s fun s => s.onAttachedAgent_chain _ fun a ha => ?_
  exact ((Primitive.station s a { s.station a with cmd := 0 }).chain.then
    (Primitive.beginWalk (s.setStation a { s.station a with cmd := 0 }) a ha).chain).then
    (State.answerControl_chain _ _)

theorem State.setBottomOf_chain (s : State) (t : Target) : Chain s (s.setBottomOf t) := by
  unfold State.setBottomOf
  split
  · exact s.answerControl_chain _
  · next a _ =>
    refine Chain.then (Chain.then ?_ (State.passOn_chain _ _ _)) (State.answerControl_chain _ _)
    cases t with
    | unit u => exact (Primitive.unitBottom s u a).chain
    | pool p => exact (Primitive.poolBottom s p a).chain

theorem execSetBottom_steps (aid : AgentId) (s : State) : ∃ t, execSetBottom aid s = .next t ∧ Steps s t := by
  refine atControlStation_steps _ _ _ s fun s => ?_
  dsimp only
  split
  · exact s.answerControl_chain _
  · split
    · exact s.answerControl_chain _
    · exact s.setBottomOf_chain _
  · split
    · exact s.answerControl_chain _
    · exact s.setBottomOf_chain _

theorem execFreeze_steps (aid : AgentId) (s : State) : ∃ t, execFreeze aid s = .next t ∧ Steps s t :=
  atControlStation_steps _ _ _ s fun s => (Primitive.freeze s).chain.then (State.answerControl_chain _ _)

theorem execResetLive_steps (aid : AgentId) (s : State) : ∃ t, execResetLive aid s = .next t ∧ Steps s t :=
  atControlStation_steps _ _ _ s fun s => (Primitive.resetLive s).chain.then (State.answerControl_chain _ _)

theorem execReadCompletions_steps (aid : AgentId) (s : State) :
    ∃ t, execReadCompletions aid s = .next t ∧ Steps s t := by
  refine atControlStation_steps _ _ _ s fun s => ?_
  split
  · exact s.answerControl_chain _
  · exact (Primitive.completions s _ _).chain.then (State.answerControl_chain _ _)

theorem execSetControlAttention_steps (aid : AgentId) (s : State) :
    ∃ t, execSetControlAttention aid s = .next t ∧ Steps s t := by
  refine atControlStation_steps _ _ _ s fun s => ?_
  split
  · exact s.answerControl_chain _
  · exact (Primitive.controlAttention s _).chain.then (State.answerControl_chain _ _)

theorem execInspectRecord_steps (aid : AgentId) (s : State) : ∃ t, execInspectRecord aid s = .next t ∧ Steps s t := by
  refine atControlStation_steps _ _ _ s fun s => ?_
  split <;> exact s.answerControl_chain _

theorem execListHolder_steps (aid : AgentId) (s : State) : ∃ t, execListHolder aid s = .next t ∧ Steps s t := by
  refine atControlStation_steps _ _ _ s fun s => ?_
  split
  · exact s.answerControl_chain _
  · dsimp only
    split <;> exact s.answerControl_chain _

/-! ### The other bus accesses -/

theorem storeWord_steps (aid : AgentId) (offset : WordOffset) (data : Word) (s : State) :
    ∃ t, storeWord aid offset data s = .next t ∧ Steps s t := by
  unfold storeWord
  dsimp only
  split
  · exact ⟨_, rfl, s.quiet_chain.steps⟩
  split
  · split
    · exact ⟨_, rfl, s.quiet_chain.steps⟩
    · exact ⟨_, rfl, (s.quiet_chain.then (Primitive.station _ _ _).chain).steps⟩
  split
  · split
    · exact ⟨_, rfl, (s.quiet_chain.then (Primitive.control _ _).chain).steps⟩
    · exact ⟨_, rfl, (s.quiet_chain.then (Primitive.port _ _).chain).steps⟩
  · exact ⟨_, rfl, s.quiet_chain.steps⟩

theorem takeCode_steps (w : Window) (aid : AgentId) (data : Word) (s : State) :
    ∃ t, takeCode w aid data s = .next t ∧ Steps s t := by
  unfold takeCode
  split
  · unfold takeAgentCode
    split
    · exact execAttach_steps aid s
    · exact execDetach_steps aid s
    · exact execAcquire_steps aid s
    · exact execAcquireAny_steps aid s
    · exact execRelease_steps aid s
    · exact execRenew_steps aid s
    · exact execUpgrade_steps aid s
    · exact execDowngrade_steps aid s
    · exact execCancel_steps aid s
    · exact execQueryLease_steps aid s
    · exact execQueryUnit_steps aid s
    · exact execProbe_steps aid s
    · exact execNextNotice_steps aid s
    · exact execSetAttention_steps aid s
    · exact atAgentStation_steps _ _ _ s fun s => Chain.steps (s.answer_chain _ _)
  · unfold takeControlCode
    split
    · exact execConfigureUnit_steps aid s
    · exact execConfigurePool_steps aid s
    · exact execSetBand_steps aid s
    · exact execSetClearance_steps aid s
    · exact execSetQuota_steps aid s
    · exact execSetTick_steps aid s
    · exact execOpenUnit_steps aid s
    · exact execDrainUnit_steps aid s
    · exact execRestoreUnit_steps aid s
    · exact execRecallLease_steps aid s
    · exact execRecallUnit_steps aid s
    · exact execHoldAgent_steps aid s
    · exact execResumeAgent_steps aid s
    · exact execDetachAgent_steps aid s
    · exact execSetBottom_steps aid s
    · exact execFreeze_steps aid s
    · exact execResetLive_steps aid s
    · exact execReadCompletions_steps aid s
    · exact execSetControlAttention_steps aid s
    · exact execInspectRecord_steps aid s
    · exact execListHolder_steps aid s
    · exact atControlStation_steps _ _ _ s fun s => s.answerControl_chain _

theorem portWrite_steps (aid : AgentId) (offset : WordOffset) (data : Word) (s : State) :
    ∃ t, portWrite aid offset data s = .next t ∧ Steps s t := by
  unfold portWrite
  split
  · exact takeCode_steps _ _ _ _
  · split
    · exact takeCode_steps _ _ _ _
    · exact storeWord_steps _ _ _ _

theorem execControlWindowRefused_steps (aid : AgentId) (offset : WordOffset) (access : Access) (s : State) :
    ∃ t, execControlWindowRefused aid offset access s = .next t ∧ Steps s t := by
  unfold execControlWindowRefused
  split
  · exact ⟨_, rfl, (Primitive.port s _).chain.steps⟩
  · exact portWrite_steps _ _ _ _

/-! ### Events -/

theorem execTick_steps (s : State) : ∃ t, execTick s = .next t ∧ Steps s t := by
  refine asEvent_steps _ s fun s => ?_
  split
  · exact s.clockEdge_chain true
  · exact .refl

theorem State.arriveIf_chain (s : State) (i : SlotId) (b : Bool) : Chain s (if b then s.arrive i else s) := by
  split
  · exact s.arrive_chain i
  · exact .refl

theorem execWithdrawalStep_steps (a : AgentId) (s : State) : ∃ t, execWithdrawalStep a s = .next t ∧ Steps s t := by
  refine asEvent_steps _ s fun s => ?_
  split
  · split
    · exact .refl
    · exact s.retire_chain _
  · exact .refl

theorem execHoldingStep_steps (a : AgentId) (s : State) : ∃ t, execHoldingStep a s = .next t ∧ Steps s t := by
  refine asEvent_steps _ s fun s => ?_
  split
  · split
    · exact .refl
    · exact s.retire_chain _
  · exact .refl

theorem execTickArrival_steps (i : SlotId) (s : State) : ∃ t, execTickArrival i s = .next t ∧ Steps s t :=
  asEvent_steps (fun s => s.arrive i) s fun s => s.arrive_chain i

theorem execLeaseExpiry_steps (i : SlotId) (s : State) : ∃ t, execLeaseExpiry i s = .next t ∧ Steps s t :=
  asEvent_steps (fun s => if s.expiryDue i .expired then s.arrive i else s) s fun s => s.arriveIf_chain i _

theorem execWaitTimeout_steps (i : SlotId) (s : State) : ∃ t, execWaitTimeout i s = .next t ∧ Steps s t :=
  asEvent_steps (fun s => if s.expiryDue i .timedOut then s.arrive i else s) s fun s => s.arriveIf_chain i _

theorem execGraceExpiry_steps (i : SlotId) (s : State) : ∃ t, execGraceExpiry i s = .next t ∧ Steps s t :=
  asEvent_steps (fun s => if s.expiryDue i .revoked then s.arrive i else s) s fun s => s.arriveIf_chain i _

theorem execWalkEnd_steps (a : AgentId) (s : State) : ∃ t, execWalkEnd a s = .next t ∧ Steps s t :=
  asEvent_steps (fun s => s.endWalk a) s fun s => (Primitive.endWalk s a).chain

theorem execDrainCompletion_steps (u : UnitId) (s : State) : ∃ t, execDrainCompletion u s = .next t ∧ Steps s t :=
  asEvent_steps (fun s => s.completeDrain u) s fun s => (Primitive.completeDrain s u).chain

theorem execClkRisingEdge_steps (tkin : Bool) (s : State) : ∃ t, execClkRisingEdge tkin s = .next t ∧ Steps s t :=
  asEvent_steps (fun s => s.clockEdge tkin) s fun s => s.clockEdge_chain tkin

/-- Every command and event answers a next state; but for POWER_ON, it is a chain of primitive changes with at most one
allocation. -/
theorem exec_steps (c : Instr) (s : State) :
    ∃ t, exec c s = .next t ∧ ((∃ straps, c = .powerOn straps) ∨ Steps s t) := by
  have lift : ∀ {r : Result}, (∃ t, r = .next t ∧ Steps s t) →
      ∃ t, r = .next t ∧ ((∃ straps, c = .powerOn straps) ∨ Steps s t) :=
    fun ⟨t, h, k⟩ => ⟨t, h, .inr k⟩
  cases c with
  | attach aid => exact lift (execAttach_steps aid s)
  | detach aid => exact lift (execDetach_steps aid s)
  | acquire aid => exact lift (execAcquire_steps aid s)
  | acquireAny aid => exact lift (execAcquireAny_steps aid s)
  | release aid => exact lift (execRelease_steps aid s)
  | renew aid => exact lift (execRenew_steps aid s)
  | upgrade aid => exact lift (execUpgrade_steps aid s)
  | downgrade aid => exact lift (execDowngrade_steps aid s)
  | cancel aid => exact lift (execCancel_steps aid s)
  | queryLease aid => exact lift (execQueryLease_steps aid s)
  | queryUnit aid => exact lift (execQueryUnit_steps aid s)
  | probe aid => exact lift (execProbe_steps aid s)
  | nextNotice aid => exact lift (execNextNotice_steps aid s)
  | setAttention aid => exact lift (execSetAttention_steps aid s)
  | configureUnit aid => exact lift (execConfigureUnit_steps aid s)
  | configurePool aid => exact lift (execConfigurePool_steps aid s)
  | setBand aid => exact lift (execSetBand_steps aid s)
  | setClearance aid => exact lift (execSetClearance_steps aid s)
  | setQuota aid => exact lift (execSetQuota_steps aid s)
  | setTick aid => exact lift (execSetTick_steps aid s)
  | openUnit aid => exact lift (execOpenUnit_steps aid s)
  | drainUnit aid => exact lift (execDrainUnit_steps aid s)
  | restoreUnit aid => exact lift (execRestoreUnit_steps aid s)
  | recallLease aid => exact lift (execRecallLease_steps aid s)
  | recallUnit aid => exact lift (execRecallUnit_steps aid s)
  | holdAgent aid => exact lift (execHoldAgent_steps aid s)
  | resumeAgent aid => exact lift (execResumeAgent_steps aid s)
  | detachAgent aid => exact lift (execDetachAgent_steps aid s)
  | setBottom aid => exact lift (execSetBottom_steps aid s)
  | freeze aid => exact lift (execFreeze_steps aid s)
  | resetLive aid => exact lift (execResetLive_steps aid s)
  | readCompletions aid => exact lift (execReadCompletions_steps aid s)
  | setControlAttention aid => exact lift (execSetControlAttention_steps aid s)
  | inspectRecord aid => exact lift (execInspectRecord_steps aid s)
  | listHolder aid => exact lift (execListHolder_steps aid s)
  | undefinedCommand aid w data => exact lift (takeCode_steps w aid data s)
  | argumentWrite aid offset data => exact lift (portWrite_steps aid offset data s)
  | busyStationWrite aid offset data => exact lift (portWrite_steps aid offset data s)
  | controlWindowRefused aid offset access => exact lift (execControlWindowRefused_steps aid offset access s)
  | hardwareReset => exact lift ⟨_, rfl, (Primitive.hardwareReset s).chain.steps⟩
  | powerOn straps => exact ⟨_, rfl, .inl ⟨straps, rfl⟩⟩
  | tick => exact lift (execTick_steps s)
  | tickArrival i => exact lift (execTickArrival_steps i s)
  | leaseExpiry i => exact lift (execLeaseExpiry_steps i s)
  | waitTimeout i => exact lift (execWaitTimeout_steps i s)
  | graceExpiry i => exact lift (execGraceExpiry_steps i s)
  | withdrawalStep a => exact lift (execWithdrawalStep_steps a s)
  | holdingStep a => exact lift (execHoldingStep_steps a s)
  | walkEnd a => exact lift (execWalkEnd_steps a s)
  | drainCompletion u => exact lift (execDrainCompletion_steps u s)
  | clkRisingEdge tkin => exact lift (execClkRisingEdge_steps tkin s)
  | hardwareResetRelease =>
    exact lift ⟨_, rfl, (s.quiet_chain.then (Primitive.resetRelease _).chain).steps⟩

/-- What every primitive, every allocation and every power-on keep, every step of the queue keeps. -/
theorem step_keeps {P : State → Prop} (primitive : ∀ s t, Primitive s t → P s → P t)
    (allocate : ∀ s t, Allocation s t → P s → P t)
    (powerOn : ∀ straps s, P s → P { State.afterPowerOn straps with inReset := s.inReset, pending := s.pending })
    (queue : ∀ s q, P s → P { s with pending := q }) (s t : State) (start : P s) (h : step s = .next t) : P t := by
  unfold step at h
  split at h
  · cases h; exact start
  · next c rest _ =>
    obtain ⟨t', h', k⟩ := exec_steps c { s with pending := rest }
    rw [h'] at h
    cases h
    rcases k with ⟨straps, rfl⟩ | k
    · cases h'; exact powerOn straps _ (queue s rest start)
    · exact k.keeps primitive allocate (queue s rest start)

end Sys2Proof.Machine
end

