-- ==== Sys2Proof/Laws/Changes.lean ====
section
/-! SUPPORT. What a primitive change can make of one record: a law about every record is kept once each of these
changes keeps it. -/

namespace Sys2Proof.Machine

/-- A record is HELD on a unit exactly when its standing says so. -/
theorem Record.isHeldOn_iff (r : Record) (u : UnitId) : r.isHeldOn u = true ↔ ∃ d c, r.standing = .held u d c := by
  unfold Record.isHeldOn
  cases r.standing <;> simp

/-- The holder set of a unit: the HELD and RECALLED records whose target is the unit (R4). -/
theorem State.mem_holders (s : State) (u : UnitId) (i : SlotId) :
    i ∈ s.holders u ↔ ∃ r, s.record i = some r ∧ r.holding = some u := by
  simp [State.holders, allSlots, State.holding, Option.bind_eq_some_iff]

/-- What one primitive change can make of the record r in slot j, in the state s before it. -/
inductive RecordChange (s : State) (j : SlotId) (r : Record) : Record → Prop where
  | same : RecordChange s j r r
  | granted (u : UnitId) (t : Target) (d : Nat) (c : Option Nat) (waits : r.standing = .waiting t d c)
      (opened : (s.unit u).state = .opened) (eligible : s.mayBeGranted r.agent u = true)
      (fits : s.compatible r.mode u = true) (unmarked : (s.unit u).mark = none ∨ s.holders u = []) :
      RecordChange s j r { r with standing := .held u 1 (effectiveDuration d (s.unit u).config.limit) }
  | exclusive (u : UnitId) (alone : s.holders u = [j]) : RecordChange s j r { r with mode := .exclusive }
  | shared (u : UnitId) (holds : r.isHeldOn u = true) (exclusive : r.mode = .exclusive)
      (room : 1 < (s.unit u).config.capacity) : RecordChange s j r { r with mode := .shared }
  | depth (u : UnitId) (d d' : Nat) (c : Option Nat) (holds : r.standing = .held u d c) (low : 1 ≤ d')
      (high : d' ≤ 15 ∨ d' ≤ d) : RecordChange s j r { r with standing := .held u d' c }
  | renewed (u : UnitId) (d : Nat) (c : Option Nat) (requested : Nat) (holds : r.standing = .held u d c)
      (range : requested ≤ 4095) :
      RecordChange s j r { r with standing := .held u d (effectiveDuration requested (s.unit u).config.limit) }
  | spent (cause : SpentCause) (attached : s.isAttached r.agent = true) (unspent : r.isSpent = false)
      (fits : r.standing.claim.mayEndAs cause) :
      RecordChange s j r { r with standing := .spent r.standing.claim cause }
  | recalled (u : UnitId) (d : Nat) (c : Option Nat) (holds : r.standing = .held u d c)
      (grace : (s.unit u).config.grace ≠ 0) :
      RecordChange s j r { r with standing := .recalled u d (s.unit u).config.grace }
  | lowered (c : Nat) (present : r.standing.countdown = some c) (more : 1 < c) :
      RecordChange s j r { r with standing := r.standing.lowered (c - 1) }

/-- A record that stands after a primitive change stood before it, in the same slot under the same serial, and is what
one of the changes makes of it. -/
theorem Primitive.record_change {s t : State} (h : Primitive s t) {j : SlotId} {r' : Record}
    (e : t.record j = some r') : ∃ r, s.record j = some r ∧ RecordChange s j r r' := by
  cases h with
  | grant own u i r tt d c found waits opened eligible fits unmarked =>
    rw [s.grant_record own u i r tt d c found waits] at e
    split at e
    · next hj =>
      subst hj; cases e
      obtain ⟨r0, _, _, _, h0, _, hm⟩ := (s.eligible_iff j u).1 eligible
      obtain rfl := Option.some.inj (found.symm.trans h0)
      exact ⟨r, found, .granted u tt d c waits opened hm fits unmarked⟩
    · exact ⟨r', e, .same⟩
  | upgrade u i opened marked alone =>
    simp only [State.post_record, State.setMode_record, State.clearMark_record] at e
    split at e
    · next hj =>
      subst hj
      obtain ⟨r, h1, rfl⟩ := Option.map_eq_some_iff.1 e
      exact ⟨r, h1, .exclusive u alone⟩
    · exact ⟨r', e, .same⟩
  | upgradeAlone u i r found holds shared alone =>
    simp only [State.setMode_record, State.clearMarkOf_record] at e
    split at e
    · next hj =>
      subst hj
      obtain ⟨r, h1, rfl⟩ := Option.map_eq_some_iff.1 e
      exact ⟨r, h1, .exclusive u alone⟩
    · exact ⟨r', e, .same⟩
  | downgrade u i r found holds exclusive room =>
    rw [State.setMode_record] at e
    split at e
    · next hj =>
      subst hj
      rw [found] at e; cases e
      exact ⟨r, found, .shared u holds exclusive room⟩
    · exact ⟨r', e, .same⟩
  | depth i r u d d' c found holds low high =>
    rw [State.record_writeRecord] at e
    split at e
    · next hj => subst hj; cases e; exact ⟨r, found, .depth u d d' c holds low high⟩
    · exact ⟨r', e, .same⟩
  | renew i r u d c q found holds range =>
    rw [State.record_loadRecord] at e
    split at e
    · next hj => subst hj; cases e; exact ⟨r, found, .renewed u d c q holds range⟩
    · exact ⟨r', e, .same⟩
  | remove i r =>
    rw [State.remove_record] at e
    split at e
    · cases e
    · exact ⟨r', e, .same⟩
  | readSpent a n rest r =>
    rw [State.remove_record] at e
    split at e
    · cases e
    · exact ⟨r', e, .same⟩
  | spend i r cause found attached unspent fits =>
    rw [State.markSpent_record] at e
    split at e
    · next hj => subst hj; cases e; exact ⟨r, found, .spent cause attached unspent fits⟩
    · exact ⟨r', e, .same⟩
  | markRecalled i r u d c found holds grace =>
    rw [State.markRecalled_record] at e
    split at e
    · next hj => subst hj; cases e; exact ⟨r, found, .recalled u d c holds grace⟩
    · exact ⟨r', e, .same⟩
  | beginWalk a =>
    rw [State.beginWalk_record] at e
    split at e
    · cases e
    · exact ⟨r', e, .same⟩
  | countdown i r c found present more =>
    rw [State.record_writeRecord] at e
    split at e
    · next hj => subst hj; cases e; exact ⟨r, found, .lowered c present more⟩
    · exact ⟨r', e, .same⟩
  | completeDrain u => exact ⟨r', by simpa using e, .same⟩
  | endWalk a => exact ⟨r', by simpa using e, .same⟩
  | resetLive => simp at e
  | hardwareReset => simp at e
  | _ => exact ⟨r', e, .same⟩

/-- A primitive change writes no serial (R22). -/
theorem Primitive.serial {s t : State} (h : Primitive s t) (j : SlotId) : (t.slot j).serial = (s.slot j).serial := by
  cases h with
  | upgrade u i => simp
  | upgradeAlone u i => simp
  | beginWalk a => simp
  | readSpent a n rest r => simp
  | completeDrain u => simp
  | endWalk a => simp
  | _ => first | rfl | simp

/-- No change of a record gives it another agent (R23). -/
theorem RecordChange.agent {s : State} {j : SlotId} {r r' : Record} (h : RecordChange s j r r') : r'.agent = r.agent := by
  cases h <;> rfl

end Sys2Proof.Machine
end

