-- ==== Sys2Proof/Laws/Passes.lean ====
section
/-! SUPPORT. What a grant pass does to one record and leaves of everything else, and what the departure of a record is:
it leaves its place, and then the pass it calls runs. -/

namespace Sys2Proof.Machine

/-! ### What no grant pass writes -/

theorem stageBWalk_same {α : Type} (f : State → α) (grant : ∀ s own u i, f (State.grant s own u i) = f s)
    (own : Option SlotId) (u : UnitId) (is : List SlotId) (s : State) (last : Option AgentId) :
    f (stageBWalk own u is s last).1 = f s := by
  induction is generalizing s last with
  | nil => rfl
  | cons i is ih =>
    unfold stageBWalk
    split
    · split
      · rw [ih, grant]
      · rfl
    · exact ih s last

/-- What no grant and no bottom agent's move changes, stage B does not change. -/
theorem State.stageB_same {α : Type} (f : State → α) (grant : ∀ s own u i, f (State.grant s own u i) = f s)
    (bottom : ∀ s u a, f (State.setUnit s u { s.unit u with bottom := a }) = f s) (s : State) (own : Option SlotId)
    (u : UnitId) : f (s.stageB own u) = f s := by
  have h := stageBWalk_same f grant own u (s.rank (s.unit u).config.order (s.unit u).bottom (s.unit u).queue) s none
  unfold State.stageB
  dsimp only
  split
  · next e => rw [e] at h; exact h
  · next e =>
    rw [e] at h
    split
    · exact (bottom _ _ _).trans h
    · exact h

/-- What no grant and no bottom agent's move changes, stage C does not change. -/
theorem State.stageC_same {α : Type} (f : State → α) (grant : ∀ s own u i, f (State.grant s own u i) = f s)
    (bottom : ∀ s p a, f (State.setPool s p { s.pool p with bottom := a }) = f s) (s : State) (own : Option SlotId)
    (u : UnitId) : f (s.stageC own u) = f s := by
  unfold State.stageC
  dsimp only
  repeat' split
  all_goals first | rfl | exact grant _ _ _ _ | exact (bottom _ _ _).trans (grant _ _ _ _)

/-- What no grant, no bottom agent's move and no upgrade changes, no pass changes. -/
theorem State.passOn_same {α : Type} (f : State → α) (grant : ∀ s own u i, f (State.grant s own u i) = f s)
    (unitBottom : ∀ s u a, f (State.setUnit s u { s.unit u with bottom := a }) = f s)
    (poolBottom : ∀ s p a, f (State.setPool s p { s.pool p with bottom := a }) = f s)
    (upgrade : ∀ s u i, f (((State.clearMark s u).setMode i .exclusive).post .upgraded i) = f s)
    (s : State) (own : Option SlotId) (t : Target) : f (s.passOn own t) = f s := by
  cases t with
  | unit u =>
    show f (s.unitPass own u) = f s
    unfold State.unitPass
    dsimp only
    repeat' split
    all_goals first
      | rfl
      | exact upgrade _ _ _
      | exact (State.stageC_same f grant poolBottom _ own u).trans (s.stageB_same f grant unitBottom own u)
      | exact s.stageB_same f grant unitBottom own u
  | pool p =>
    show f (s.poolPass own p) = f s
    unfold State.poolPass
    generalize allUnits = us
    induction us generalizing s with
    | nil => rfl
    | cons u us ih =>
      rw [List.foldl_cons, ih]
      unfold State.offer
      split
      · exact s.stageC_same f grant poolBottom own u
      · rfl

@[simp] theorem State.passOn_agent (s : State) (own : Option SlotId) (t : Target) (b : AgentId) :
    (s.passOn own t).agent b = s.agent b :=
  s.passOn_same (·.agent b) (by simp) (by simp) (by simp) (by simp) own t
@[simp] theorem State.passOn_station (s : State) (own : Option SlotId) (t : Target) (b : AgentId) :
    (s.passOn own t).station b = s.station b :=
  s.passOn_same (·.station b) (by simp) (by simp) (by simp) (by simp) own t
@[simp] theorem State.passOn_serial (s : State) (own : Option SlotId) (t : Target) (j : SlotId) :
    ((s.passOn own t).slot j).serial = (s.slot j).serial :=
  s.passOn_same (fun s => (s.slot j).serial) (by simp) (by simp) (by simp) (by simp) own t
@[simp] theorem State.passOn_control (s : State) (own : Option SlotId) (t : Target) :
    (s.passOn own t).control = s.control :=
  s.passOn_same (·.control) (by simp) (by simp) (by simp) (by simp) own t
@[simp] theorem State.passOn_ceiling (s : State) (own : Option SlotId) (t : Target) :
    (s.passOn own t).ceiling = s.ceiling :=
  s.passOn_same (·.ceiling) (by simp) (by simp) (by simp) (by simp) own t
@[simp] theorem State.passOn_frozen (s : State) (own : Option SlotId) (t : Target) :
    (s.passOn own t).frozen = s.frozen :=
  s.passOn_same (·.frozen) (by simp) (by simp) (by simp) (by simp) own t
@[simp] theorem State.passOn_drained (s : State) (own : Option SlotId) (t : Target) :
    (s.passOn own t).drained = s.drained :=
  s.passOn_same (·.drained) (by simp) (by simp) (by simp) (by simp) own t
@[simp] theorem State.passOn_detached (s : State) (own : Option SlotId) (t : Target) :
    (s.passOn own t).detached = s.detached :=
  s.passOn_same (·.detached) (by simp) (by simp) (by simp) (by simp) own t
@[simp] theorem State.passOn_supervisor (s : State) (own : Option SlotId) (t : Target) :
    (s.passOn own t).supervisor = s.supervisor :=
  s.passOn_same (·.supervisor) (by simp) (by simp) (by simp) (by simp) own t

/-- No grant changes a unit's state or configuration. -/
theorem State.grant_service (s : State) (own : Option SlotId) (u : UnitId) (i : SlotId) (v : UnitId) :
    ((s.grant own u i).unit v).state = (s.unit v).state ∧ ((s.grant own u i).unit v).config = (s.unit v).config ∧
      ((s.grant own u i).unit v).mark = (s.unit v).mark := by
  unfold State.grant
  (repeat' split) <;> simp only [State.post_unit, State.loadRecord_unit, State.dequeue_unit] <;> (repeat' split) <;>
    simp

@[simp] theorem State.passOn_unitState (s : State) (own : Option SlotId) (t : Target) (v : UnitId) :
    ((s.passOn own t).unit v).state = (s.unit v).state :=
  s.passOn_same (fun s => (s.unit v).state) (fun s own u i => (s.grant_service own u i v).1)
    (fun s u a => by rw [State.unit_setUnit]; split <;> simp_all) (by simp)
    (fun s u i => by simp only [State.post_unit, State.setMode_unit, State.clearMark_unit]; split <;> rfl) own t
@[simp] theorem State.passOn_config (s : State) (own : Option SlotId) (t : Target) (v : UnitId) :
    ((s.passOn own t).unit v).config = (s.unit v).config :=
  s.passOn_same (fun s => (s.unit v).config) (fun s own u i => (s.grant_service own u i v).2.1)
    (fun s u a => by rw [State.unit_setUnit]; split <;> simp_all) (by simp)
    (fun s u i => by simp only [State.post_unit, State.setMode_unit, State.clearMark_unit]; split <;> rfl) own t

/-- No pass sets a mark. -/
theorem State.unitPass_mark (s : State) (own : Option SlotId) (u v : UnitId) (h : (s.unit v).mark = none) :
    ((s.unitPass own u).unit v).mark = none := by
  have b : ((s.stageB own u).unit v).mark = (s.unit v).mark :=
    s.stageB_same (fun s => (s.unit v).mark) (fun s own u i => (s.grant_service own u i v).2.2)
      (fun s u a => by rw [State.unit_setUnit]; split <;> simp_all) own u
  have c : ∀ s : State, ((s.stageC own u).unit v).mark = (s.unit v).mark := fun s =>
    s.stageC_same (fun s => (s.unit v).mark) (fun s own u i => (s.grant_service own u i v).2.2) (by simp) own u
  unfold State.unitPass
  dsimp only
  repeat' split
  all_goals first
    | exact h
    | (rw [State.post_unit, State.setMode_unit, State.clearMark_unit]; split <;> simp_all)
    | (rw [c, b]; exact h)
    | (rw [b]; exact h)

/-! ### What a pass does to one record -/

/-- From s to t, the record of slot j is as it was, or it was an eligible waiter and is now the lease that a grant makes
of it. -/
def GrantedOrSame (s t : State) (j : SlotId) : Prop :=
  t.record j = s.record j ∨
    ∃ r u tt d c, s.record j = some r ∧ r.standing = .waiting tt d c ∧ s.eligible j u = true ∧
      t.record j = some { r with standing := .held u 1 (effectiveDuration d (s.unit u).config.limit) }

/-- Eligibility is read from the waiter's record, the agents, the ceiling and the supervisor alone. -/
theorem State.eligible_congr {s t : State} {j : SlotId} (u : UnitId) (record : t.record j = s.record j)
    (agent : ∀ b, t.agent b = s.agent b) (ceiling : t.ceiling = s.ceiling) (supervisor : t.supervisor = s.supervisor) :
    t.eligible j u = s.eligible j u := by
  simp only [State.eligible, record, State.mayBeGranted, State.isAttached, agent, State.bandPermits, State.inBand,
    State.clearance, ceiling, supervisor]

/-- What a pass never writes: agents, ceiling, supervisor and the units' configuration. -/
structure SamePermits (s t : State) : Prop where
  agent : ∀ b, t.agent b = s.agent b
  ceiling : t.ceiling = s.ceiling
  supervisor : t.supervisor = s.supervisor
  config : ∀ v, (t.unit v).config = (s.unit v).config

theorem SamePermits.trans {s t w : State} (h : SamePermits s t) (k : SamePermits t w) : SamePermits s w :=
  ⟨fun b => (k.agent b).trans (h.agent b), k.ceiling.trans h.ceiling, k.supervisor.trans h.supervisor,
    fun v => (k.config v).trans (h.config v)⟩

theorem GrantedOrSame.trans {s t w : State} {j : SlotId} (p : SamePermits s t) (h : GrantedOrSame s t j)
    (k : GrantedOrSame t w j) : GrantedOrSame s w j := by
  rcases h with h | ⟨r, u, tt, d, c, hr, hs, he, ht⟩
  · rcases k with k | ⟨r, u, tt, d, c, hr, hs, he, hw⟩
    · exact .inl (k.trans h)
    · refine .inr ⟨r, u, tt, d, c, h.symm.trans hr, hs, ?_, ?_⟩
      · rw [← he]; exact (State.eligible_congr u h p.agent p.ceiling p.supervisor).symm
      · rw [hw, p.config]
  · rcases k with k | ⟨r', _, _, _, _, hr', hs', _⟩
    · exact .inr ⟨r, u, tt, d, c, hr, hs, he, k.trans ht⟩
    · rw [ht] at hr'; cases hr'; cases hs'

theorem State.grant_permits (s : State) (own : Option SlotId) (u : UnitId) (i : SlotId) :
    SamePermits s (s.grant own u i) :=
  ⟨by simp, by simp, by simp, fun v => (s.grant_service own u i v).2.1⟩

theorem State.grant_grantedOrSame (s : State) (own : Option SlotId) (u : UnitId) (i : SlotId)
    (eligible : s.eligible i u = true) (j : SlotId) : GrantedOrSame s (s.grant own u i) j := by
  obtain ⟨r, t, d, c, hr, hw, _⟩ := (s.eligible_iff i u).1 eligible
  by_cases h : j = i
  · subst h
    exact .inr ⟨r, u, t, d, c, hr, hw, eligible, by rw [s.grant_record own u j r t d c hr hw, if_pos rfl]⟩
  · exact .inl (by rw [s.grant_record own u i r t d c hr hw, if_neg h])

theorem stageBWalk_grantedOrSame (own : Option SlotId) (u : UnitId) (j : SlotId) (is : List SlotId) (s : State)
    (last : Option AgentId) :
    SamePermits s (stageBWalk own u is s last).1 ∧ GrantedOrSame s (stageBWalk own u is s last).1 j := by
  induction is generalizing s last with
  | nil => exact ⟨⟨fun _ => rfl, rfl, rfl, fun _ => rfl⟩, .inl rfl⟩
  | cons i is ih =>
    unfold stageBWalk
    split
    · next he =>
      split
      · obtain ⟨p, g⟩ := ih (s.grant own u i) ((s.owner i).or last)
        have q := s.grant_permits own u i
        exact ⟨q.trans p, (s.grant_grantedOrSame own u i he j).trans q g⟩
      · exact ⟨⟨fun _ => rfl, rfl, rfl, fun _ => rfl⟩, .inl rfl⟩
    · exact ih s last

theorem State.stageB_grantedOrSame (s : State) (own : Option SlotId) (u : UnitId) (j : SlotId) :
    SamePermits s (s.stageB own u) ∧ GrantedOrSame s (s.stageB own u) j := by
  have h := stageBWalk_grantedOrSame own u j (s.rank (s.unit u).config.order (s.unit u).bottom (s.unit u).queue) s none
  unfold State.stageB
  dsimp only
  split
  · next e => rw [e] at h; exact h
  · next e =>
    rw [e] at h
    split
    · refine ⟨h.1.trans ⟨fun _ => rfl, rfl, rfl, fun v => ?_⟩, h.2⟩
      rw [State.unit_setUnit]; split <;> simp_all
    · exact h

theorem State.stageC_grantedOrSame (s : State) (own : Option SlotId) (u : UnitId) (j : SlotId) :
    SamePermits s (s.stageC own u) ∧ GrantedOrSame s (s.stageC own u) j := by
  have refl : SamePermits s s ∧ GrantedOrSame s s j := ⟨⟨fun _ => rfl, rfl, rfl, fun _ => rfl⟩, .inl rfl⟩
  unfold State.stageC
  dsimp only
  split
  · exact refl
  · split
    · exact refl
    · next i hi =>
      have he := List.find?_some hi
      have h := And.intro (s.grant_permits own u i) (s.grant_grantedOrSame own u i he j)
      repeat' split
      · exact h
      · exact ⟨h.1.trans ⟨fun _ => rfl, rfl, rfl, fun _ => rfl⟩, h.2⟩
      · exact h

/-- A pool pass grants eligible waiters and does nothing else to a record (R79). -/
theorem State.poolPass_grantedOrSame (s : State) (own : Option SlotId) (p : PoolId) (j : SlotId) :
    GrantedOrSame s (s.poolPass own p) j := by
  suffices h : SamePermits s (s.poolPass own p) ∧ GrantedOrSame s (s.poolPass own p) j from h.2
  unfold State.poolPass
  generalize allUnits = us
  induction us generalizing s with
  | nil => exact ⟨⟨fun _ => rfl, rfl, rfl, fun _ => rfl⟩, .inl rfl⟩
  | cons u us ih =>
    rw [List.foldl_cons]
    have h : SamePermits s (s.offer own p u) ∧ GrantedOrSame s (s.offer own p u) j := by
      unfold State.offer
      split
      · exact s.stageC_grantedOrSame own u j
      · exact ⟨⟨fun _ => rfl, rfl, rfl, fun _ => rfl⟩, .inl rfl⟩
    obtain ⟨p, g⟩ := ih (s.offer own p u)
    exact ⟨h.1.trans p, h.2.trans h.1 g⟩

/-- A unit pass grants eligible waiters, or makes the unit's one holder EXCLUSIVE, and does nothing else to a record (R71,
R74, R77). -/
theorem State.unitPass_record (s : State) (own : Option SlotId) (u : UnitId) (j : SlotId) :
    GrantedOrSame s (s.unitPass own u) j ∨
      ∃ r, s.record j = some r ∧ s.holders u = [j] ∧ (s.unitPass own u).record j = some { r with mode := .exclusive } := by
  unfold State.unitPass
  dsimp only
  split
  · exact .inl (.inl rfl)
  · exact .inl (.inl rfl)
  · split
    · next i _ =>
      split
      · next alone =>
        simp only [State.post_record, State.setMode_record, State.clearMark_record, GrantedOrSame]
        by_cases h : j = i
        · subst h
          cases hr : s.record j with
          | none => exact .inl (.inl (by simp))
          | some r => exact .inr ⟨r, rfl, alone, by simp⟩
        · exact .inl (.inl (if_neg h))
      · exact .inl (.inl rfl)
    · have b := s.stageB_grantedOrSame own u j
      split
      · exact .inl (b.2.trans b.1 (State.stageC_grantedOrSame _ own u j).2)
      · exact .inl b.2

/-! ### Departures -/

/-- A slot is its serial and its record. -/
theorem State.slot_eq (s : State) (j : SlotId) : s.slot j = { serial := (s.slot j).serial, record := s.record j } := rfl

/-- A record that leaves its place, with anything left in its slot, leaves its place and no more. -/
theorem State.leavePlace_leavesPlace (s : State) (i : SlotId) (r : Record) (left : Option Record) :
    LeavesPlace s ((s.leavePlace i r).loadRecord i left) i r left := by
  refine ⟨fun j => ?_, fun v => ?_, fun q => ?_, ?_⟩
  · rw [State.slot_eq]
    rw [State.record_loadRecord, State.serial_loadRecord, State.leavePlace_slot]
    split
    · next h => rw [h]
    · rw [State.leavePlace_record, ← State.slot_eq]
  · rw [State.loadRecord_unit, State.leavePlace_unit]
  · rw [State.loadRecord_pool, State.leavePlace_pool]
  · simp [Timer.spoil]

/-- A removed record leaves its place (R35). -/
theorem State.remove_leavesPlace (s : State) (i : SlotId) (r : Record) : LeavesPlace s (s.remove i r) i r none := by
  refine ⟨fun j => ?_, fun v => ?_, fun q => ?_, ?_⟩
  · rw [State.slot_eq]
    rw [State.remove_record, State.remove_serial]
    split
    · next h => rw [h]
    · rw [← State.slot_eq]
  · rw [State.remove_unit, State.leavePlace_unit]
  · rw [State.remove_pool, State.leavePlace_pool]
  · simp [Timer.spoil]

/-- The pass and the completion of a drain are what a departure calls. -/
theorem State.afterDeparture_departs (p : State) (r : Record) : Departs r p (p.afterDeparture r) := by
  unfold State.afterDeparture State.completeDrain
  refine ⟨fun target d c h => by rw [h], fun u q hu hq => ?_, fun h => ?_⟩
  · subst hq
    cases h : r.standing <;> simp only [Record.holding, h, reduceCtorEq, Option.some.injEq] at hu <;> subst hu <;>
      refine ⟨fun hs hh => if_pos ⟨hs, List.isEmpty_iff.2 hh⟩, fun hn => if_neg fun k => ?_⟩ <;>
      exact hn.elim (fun n => n k.1) fun n => n (List.isEmpty_iff.1 k.2)
  · cases hs : r.standing <;> simp_all [Record.isSpent]

end Sys2Proof.Machine
end

