-- ==== Sys2Proof/Laws/Stations.lean ====
section
/-! SUPPORT. What taking a command does to the state before the command's own effect: a station's words and the port, and
nothing else. One lemma per register and per view. -/

namespace Sys2Proof.Machine

/-- At a READY station outside reset the command runs on the state in which CMD holds its code. -/
theorem atAgentStation_ready {aid : AgentId} {s : State} (h : Ready aid s) (code : Word) (body : State → State) :
    atAgentStation code aid body s = .next (body (s.taken aid code)) := by
  have h1 : ¬(s.quiet.inReset = true ∨ s.quiet.busy aid = true) := by simpa using ⟨h.1, h.2⟩
  exact if_neg h1

/-- The supervisor agent's control command runs on the state in which CMD holds its code. -/
theorem atControlStation_supervises {aid : AgentId} {s : State} (h : Supervises aid s) (code : Word)
    (body : State → State) : atControlStation code aid body s = .next (body (s.takenControl code)) := by
  have h1 : ¬ s.quiet.inReset = true := by simpa using h.1
  exact (if_neg h1).trans (if_pos h.2)

/-- Outside reset an event of the part takes its effect on the quiet port. -/
theorem asEvent_running {s : State} (h : s.inReset = false) (body : State → State) :
    asEvent body s = .next (body s.quiet) := by
  have h1 : ¬ s.quiet.inReset = true := by simpa using h
  exact if_neg h1

@[simp] theorem State.taken_answer (s : State) (aid : AgentId) (code : Word) (ans : Answer) :
    (s.taken aid code).answer aid ans = s.replied aid code ans := by
  simp [State.taken, State.answer, State.replied, Station.answered, Station.holding]

@[simp] theorem State.takenControl_answerControl (s : State) (code : Word) (ans : Answer) :
    (s.takenControl code).answerControl ans = s.repliedControl code ans := (rfl)

theorem State.taken_station (s : State) (aid : AgentId) (code : Word) :
    (s.taken aid code).station aid = { s.station aid with cmd := code } := by
  simp [State.taken]

theorem State.taken_station_of_ne (s : State) {aid b : AgentId} (code : Word) (h : b ≠ aid) :
    (s.taken aid code).station b = s.station b := by
  simp [State.taken, State.station_setStation_of_ne _ _ h]

@[simp] theorem State.taken_control (s : State) (aid : AgentId) (code : Word) :
    (s.taken aid code).control = s.control := (rfl)

theorem State.takenControl_control (s : State) (code : Word) :
    (s.takenControl code).control = { s.control with cmd := code } := (rfl)

@[simp] theorem State.taken_station_arg0 (s : State) (aid : AgentId) (code : Word) :
    ((s.taken aid code).station aid).arg0 = (s.station aid).arg0 := by
  rw [State.taken_station]

@[simp] theorem State.takenControl_control_arg0 (s : State) (code : Word) :
    (s.takenControl code).control.arg0 = s.control.arg0 := (rfl)

@[simp] theorem State.taken_station_arg1 (s : State) (aid : AgentId) (code : Word) :
    ((s.taken aid code).station aid).arg1 = (s.station aid).arg1 := by
  rw [State.taken_station]

@[simp] theorem State.takenControl_control_arg1 (s : State) (code : Word) :
    (s.takenControl code).control.arg1 = s.control.arg1 := (rfl)

@[simp] theorem State.taken_station_arg2 (s : State) (aid : AgentId) (code : Word) :
    ((s.taken aid code).station aid).arg2 = (s.station aid).arg2 := by
  rw [State.taken_station]

@[simp] theorem State.takenControl_control_arg2 (s : State) (code : Word) :
    (s.takenControl code).control.arg2 = s.control.arg2 := (rfl)

@[simp] theorem unitConfigOf_takenControl (s : State) (code : Word) :
    unitConfigOf (s.takenControl code).control = unitConfigOf s.control := (rfl)

@[simp] theorem poolOrderOf_takenControl (s : State) (code : Word) :
    poolOrderOf (s.takenControl code).control = poolOrderOf s.control := (rfl)

@[simp] theorem tickSetupOf_takenControl (s : State) (code : Word) :
    tickSetupOf (s.takenControl code).control = tickSetupOf s.control := (rfl)

@[simp] theorem State.takenControl_station (s : State) (code : Word) (b : AgentId) :
    (s.takenControl code).station b = s.station b := (rfl)

@[simp] theorem State.taken_unit (s : State) (aid : AgentId) (code : Word) (u : UnitId) :
    (s.taken aid code).unit u = s.unit u := (rfl)

@[simp] theorem State.takenControl_unit (s : State) (code : Word) (u : UnitId) :
    (s.takenControl code).unit u = s.unit u := (rfl)

@[simp] theorem State.taken_pool (s : State) (aid : AgentId) (code : Word) (p : PoolId) :
    (s.taken aid code).pool p = s.pool p := (rfl)

@[simp] theorem State.takenControl_pool (s : State) (code : Word) (p : PoolId) :
    (s.takenControl code).pool p = s.pool p := (rfl)

@[simp] theorem State.taken_slot (s : State) (aid : AgentId) (code : Word) (i : SlotId) :
    (s.taken aid code).slot i = s.slot i := (rfl)

@[simp] theorem State.takenControl_slot (s : State) (code : Word) (i : SlotId) :
    (s.takenControl code).slot i = s.slot i := (rfl)

@[simp] theorem State.taken_record (s : State) (aid : AgentId) (code : Word) (i : SlotId) :
    (s.taken aid code).record i = s.record i := (rfl)

@[simp] theorem State.takenControl_record (s : State) (code : Word) (i : SlotId) :
    (s.takenControl code).record i = s.record i := (rfl)

@[simp] theorem State.taken_agent (s : State) (aid : AgentId) (code : Word) (b : AgentId) :
    (s.taken aid code).agent b = s.agent b := (rfl)

@[simp] theorem State.takenControl_agent (s : State) (code : Word) (b : AgentId) :
    (s.takenControl code).agent b = s.agent b := (rfl)

@[simp] theorem State.taken_notice (s : State) (aid : AgentId) (code : Word) (b : AgentId) :
    (s.taken aid code).notice b = s.notice b := (rfl)

@[simp] theorem State.takenControl_notice (s : State) (code : Word) (b : AgentId) :
    (s.takenControl code).notice b = s.notice b := (rfl)

@[simp] theorem State.taken_units (s : State) (aid : AgentId) (code : Word) :
    (s.taken aid code).units = s.units := (rfl)

@[simp] theorem State.takenControl_units (s : State) (code : Word) :
    (s.takenControl code).units = s.units := (rfl)

@[simp] theorem State.taken_pools (s : State) (aid : AgentId) (code : Word) :
    (s.taken aid code).pools = s.pools := (rfl)

@[simp] theorem State.takenControl_pools (s : State) (code : Word) :
    (s.takenControl code).pools = s.pools := (rfl)

@[simp] theorem State.taken_slots (s : State) (aid : AgentId) (code : Word) :
    (s.taken aid code).slots = s.slots := (rfl)

@[simp] theorem State.takenControl_slots (s : State) (code : Word) :
    (s.takenControl code).slots = s.slots := (rfl)

@[simp] theorem State.taken_agents (s : State) (aid : AgentId) (code : Word) :
    (s.taken aid code).agents = s.agents := (rfl)

@[simp] theorem State.takenControl_agents (s : State) (code : Word) :
    (s.takenControl code).agents = s.agents := (rfl)

@[simp] theorem State.taken_notices (s : State) (aid : AgentId) (code : Word) :
    (s.taken aid code).notices = s.notices := (rfl)

@[simp] theorem State.takenControl_notices (s : State) (code : Word) :
    (s.takenControl code).notices = s.notices := (rfl)

@[simp] theorem State.taken_timer (s : State) (aid : AgentId) (code : Word) :
    (s.taken aid code).timer = s.timer := (rfl)

@[simp] theorem State.takenControl_timer (s : State) (code : Word) :
    (s.takenControl code).timer = s.timer := (rfl)

@[simp] theorem State.taken_ceiling (s : State) (aid : AgentId) (code : Word) :
    (s.taken aid code).ceiling = s.ceiling := (rfl)

@[simp] theorem State.takenControl_ceiling (s : State) (code : Word) :
    (s.takenControl code).ceiling = s.ceiling := (rfl)

@[simp] theorem State.taken_frozen (s : State) (aid : AgentId) (code : Word) :
    (s.taken aid code).frozen = s.frozen := (rfl)

@[simp] theorem State.takenControl_frozen (s : State) (code : Word) :
    (s.takenControl code).frozen = s.frozen := (rfl)

@[simp] theorem State.taken_drained (s : State) (aid : AgentId) (code : Word) :
    (s.taken aid code).drained = s.drained := (rfl)

@[simp] theorem State.takenControl_drained (s : State) (code : Word) :
    (s.takenControl code).drained = s.drained := (rfl)

@[simp] theorem State.taken_detached (s : State) (aid : AgentId) (code : Word) :
    (s.taken aid code).detached = s.detached := (rfl)

@[simp] theorem State.takenControl_detached (s : State) (code : Word) :
    (s.takenControl code).detached = s.detached := (rfl)

@[simp] theorem State.taken_controlAttention (s : State) (aid : AgentId) (code : Word) :
    (s.taken aid code).controlAttention = s.controlAttention := (rfl)

@[simp] theorem State.takenControl_controlAttention (s : State) (code : Word) :
    (s.takenControl code).controlAttention = s.controlAttention := (rfl)

@[simp] theorem State.taken_supervisor (s : State) (aid : AgentId) (code : Word) :
    (s.taken aid code).supervisor = s.supervisor := (rfl)

@[simp] theorem State.takenControl_supervisor (s : State) (code : Word) :
    (s.takenControl code).supervisor = s.supervisor := (rfl)

@[simp] theorem State.taken_inReset (s : State) (aid : AgentId) (code : Word) :
    (s.taken aid code).inReset = s.inReset := (rfl)

@[simp] theorem State.takenControl_inReset (s : State) (code : Word) :
    (s.takenControl code).inReset = s.inReset := (rfl)

@[simp] theorem State.taken_pending (s : State) (aid : AgentId) (code : Word) :
    (s.taken aid code).pending = s.pending := (rfl)

@[simp] theorem State.takenControl_pending (s : State) (code : Word) :
    (s.takenControl code).pending = s.pending := (rfl)

@[simp] theorem State.taken_owner (s : State) (aid : AgentId) (code : Word) (i : SlotId) :
    (s.taken aid code).owner i = s.owner i := (rfl)

@[simp] theorem State.takenControl_owner (s : State) (code : Word) (i : SlotId) :
    (s.takenControl code).owner i = s.owner i := (rfl)

@[simp] theorem State.taken_holding (s : State) (aid : AgentId) (code : Word) (i : SlotId) :
    (s.taken aid code).holding i = s.holding i := (rfl)

@[simp] theorem State.takenControl_holding (s : State) (code : Word) (i : SlotId) :
    (s.takenControl code).holding i = s.holding i := (rfl)

@[simp] theorem State.taken_holders (s : State) (aid : AgentId) (code : Word) (u : UnitId) :
    (s.taken aid code).holders u = s.holders u := (rfl)

@[simp] theorem State.takenControl_holders (s : State) (code : Word) (u : UnitId) :
    (s.takenControl code).holders u = s.holders u := (rfl)

@[simp] theorem State.taken_isShared (s : State) (aid : AgentId) (code : Word) (i : SlotId) :
    (s.taken aid code).isShared i = s.isShared i := (rfl)

@[simp] theorem State.takenControl_isShared (s : State) (code : Word) (i : SlotId) :
    (s.takenControl code).isShared i = s.isShared i := (rfl)

@[simp] theorem State.taken_holderMode (s : State) (aid : AgentId) (code : Word) (u : UnitId) :
    (s.taken aid code).holderMode u = s.holderMode u := (rfl)

@[simp] theorem State.takenControl_holderMode (s : State) (code : Word) (u : UnitId) :
    (s.takenControl code).holderMode u = s.holderMode u := (rfl)

@[simp] theorem State.taken_holderOf (s : State) (aid : AgentId) (code : Word) (b : AgentId) (u : UnitId) :
    (s.taken aid code).holderOf b u = s.holderOf b u := (rfl)

@[simp] theorem State.takenControl_holderOf (s : State) (code : Word) (b : AgentId) (u : UnitId) :
    (s.takenControl code).holderOf b u = s.holderOf b u := (rfl)

@[simp] theorem State.taken_upgradePending (s : State) (aid : AgentId) (code : Word) (i : SlotId) :
    (s.taken aid code).upgradePending i = s.upgradePending i := (rfl)

@[simp] theorem State.takenControl_upgradePending (s : State) (code : Word) (i : SlotId) :
    (s.takenControl code).upgradePending i = s.upgradePending i := (rfl)

@[simp] theorem State.taken_recordCount (s : State) (aid : AgentId) (code : Word) (b : AgentId) :
    (s.taken aid code).recordCount b = s.recordCount b := (rfl)

@[simp] theorem State.takenControl_recordCount (s : State) (code : Word) (b : AgentId) :
    (s.takenControl code).recordCount b = s.recordCount b := (rfl)

@[simp] theorem State.taken_waitsOf (s : State) (aid : AgentId) (code : Word) (b : AgentId) :
    (s.taken aid code).waitsOf b = s.waitsOf b := (rfl)

@[simp] theorem State.takenControl_waitsOf (s : State) (code : Word) (b : AgentId) :
    (s.takenControl code).waitsOf b = s.waitsOf b := (rfl)

@[simp] theorem State.taken_waitsIn (s : State) (aid : AgentId) (code : Word) (b : AgentId) (q : List SlotId) :
    (s.taken aid code).waitsIn b q = s.waitsIn b q := (rfl)

@[simp] theorem State.takenControl_waitsIn (s : State) (code : Word) (b : AgentId) (q : List SlotId) :
    (s.takenControl code).waitsIn b q = s.waitsIn b q := (rfl)

@[simp] theorem State.taken_isAttached (s : State) (aid : AgentId) (code : Word) (b : AgentId) :
    (s.taken aid code).isAttached b = s.isAttached b := (rfl)

@[simp] theorem State.takenControl_isAttached (s : State) (code : Word) (b : AgentId) :
    (s.takenControl code).isAttached b = s.isAttached b := (rfl)

@[simp] theorem State.taken_busy (s : State) (aid : AgentId) (code : Word) (b : AgentId) :
    (s.taken aid code).busy b = s.busy b := (rfl)

@[simp] theorem State.takenControl_busy (s : State) (code : Word) (b : AgentId) :
    (s.takenControl code).busy b = s.busy b := (rfl)

@[simp] theorem State.taken_clearance (s : State) (aid : AgentId) (code : Word) (b : AgentId) :
    (s.taken aid code).clearance b = s.clearance b := (rfl)

@[simp] theorem State.takenControl_clearance (s : State) (code : Word) (b : AgentId) :
    (s.takenControl code).clearance b = s.clearance b := (rfl)

@[simp] theorem State.taken_bandPermits (s : State) (aid : AgentId) (code : Word) (b : AgentId) (u : UnitId) :
    (s.taken aid code).bandPermits b u = s.bandPermits b u := (rfl)

@[simp] theorem State.takenControl_bandPermits (s : State) (code : Word) (b : AgentId) (u : UnitId) :
    (s.takenControl code).bandPermits b u = s.bandPermits b u := (rfl)

@[simp] theorem State.taken_members (s : State) (aid : AgentId) (code : Word) (p : PoolId) :
    (s.taken aid code).members p = s.members p := (rfl)

@[simp] theorem State.takenControl_members (s : State) (code : Word) (p : PoolId) :
    (s.takenControl code).members p = s.members p := (rfl)

@[simp] theorem State.taken_handle (s : State) (aid : AgentId) (code : Word) (i : SlotId) :
    (s.taken aid code).handle i = s.handle i := (rfl)

@[simp] theorem State.takenControl_handle (s : State) (code : Word) (i : SlotId) :
    (s.takenControl code).handle i = s.handle i := (rfl)

@[simp] theorem State.taken_hasEntry (s : State) (aid : AgentId) (code : Word) (b : AgentId) (i : SlotId) :
    (s.taken aid code).hasEntry b i = s.hasEntry b i := (rfl)

@[simp] theorem State.takenControl_hasEntry (s : State) (code : Word) (b : AgentId) (i : SlotId) :
    (s.takenControl code).hasEntry b i = s.hasEntry b i := (rfl)

@[simp] theorem State.taken_eligible (s : State) (aid : AgentId) (code : Word) (i : SlotId) (u : UnitId) :
    (s.taken aid code).eligible i u = s.eligible i u := (rfl)

@[simp] theorem State.takenControl_eligible (s : State) (code : Word) (i : SlotId) (u : UnitId) :
    (s.takenControl code).eligible i u = s.eligible i u := (rfl)

@[simp] theorem State.taken_compatible (s : State) (aid : AgentId) (code : Word) (m : Mode) (u : UnitId) :
    (s.taken aid code).compatible m u = s.compatible m u := (rfl)

@[simp] theorem State.takenControl_compatible (s : State) (code : Word) (m : Mode) (u : UnitId) :
    (s.takenControl code).compatible m u = s.compatible m u := (rfl)

@[simp] theorem State.taken_fits (s : State) (aid : AgentId) (code : Word) (i : SlotId) (u : UnitId) :
    (s.taken aid code).fits i u = s.fits i u := (rfl)

@[simp] theorem State.takenControl_fits (s : State) (code : Word) (i : SlotId) (u : UnitId) :
    (s.takenControl code).fits i u = s.fits i u := (rfl)

@[simp] theorem State.taken_rank (s : State) (aid : AgentId) (code : Word) (o : OrderMode) (k : AgentId) (q : List SlotId) :
    (s.taken aid code).rank o k q = s.rank o k q := (rfl)

@[simp] theorem State.takenControl_rank (s : State) (code : Word) (o : OrderMode) (k : AgentId) (q : List SlotId) :
    (s.takenControl code).rank o k q = s.rank o k q := (rfl)

@[simp] theorem State.taken_freeSlot (s : State) (aid : AgentId) (code : Word) :
    (s.taken aid code).freeSlot = s.freeSlot := (rfl)

@[simp] theorem State.takenControl_freeSlot (s : State) (code : Word) :
    (s.takenControl code).freeSlot = s.freeSlot := (rfl)

@[simp] theorem State.taken_statusWord (s : State) (aid : AgentId) (code : Word) (i : SlotId) (r : Record) :
    (s.taken aid code).statusWord i r = s.statusWord i r := (rfl)

@[simp] theorem State.takenControl_statusWord (s : State) (code : Word) (i : SlotId) (r : Record) :
    (s.takenControl code).statusWord i r = s.statusWord i r := (rfl)

@[simp] theorem State.taken_drainedCount (s : State) (aid : AgentId) (code : Word) :
    (s.taken aid code).drainedCount = s.drainedCount := (rfl)

@[simp] theorem State.takenControl_drainedCount (s : State) (code : Word) :
    (s.takenControl code).drainedCount = s.drainedCount := (rfl)

@[simp] theorem State.taken_detachedCount (s : State) (aid : AgentId) (code : Word) :
    (s.taken aid code).detachedCount = s.detachedCount := (rfl)

@[simp] theorem State.takenControl_detachedCount (s : State) (code : Word) :
    (s.takenControl code).detachedCount = s.detachedCount := (rfl)

@[simp] theorem State.taken_heldOn (s : State) (aid : AgentId) (code : Word) (u : UnitId) :
    (s.taken aid code).heldOn u = s.heldOn u := (rfl)

@[simp] theorem State.takenControl_heldOn (s : State) (code : Word) (u : UnitId) :
    (s.takenControl code).heldOn u = s.heldOn u := (rfl)

@[simp] theorem State.taken_slotStateNo (s : State) (aid : AgentId) (code : Word) (i : SlotId) :
    (s.taken aid code).slotStateNo i = s.slotStateNo i := (rfl)

@[simp] theorem State.takenControl_slotStateNo (s : State) (code : Word) (i : SlotId) :
    (s.takenControl code).slotStateNo i = s.slotStateNo i := (rfl)

@[simp] theorem State.taken_spentOf (s : State) (aid : AgentId) (code : Word) (b : AgentId) :
    (s.taken aid code).spentOf b = s.spentOf b := (rfl)

@[simp] theorem State.takenControl_spentOf (s : State) (code : Word) (b : AgentId) :
    (s.takenControl code).spentOf b = s.spentOf b := (rfl)

@[simp] theorem State.taken_configuration (s : State) (aid : AgentId) (code : Word) :
    (s.taken aid code).configuration = s.configuration := (rfl)

@[simp] theorem State.takenControl_configuration (s : State) (code : Word) :
    (s.takenControl code).configuration = s.configuration := (rfl)

/-! ### An answer and the updates of the rest of the state do not meet -/

@[simp] theorem State.setUnit_answer (s : State) (u : UnitId) (r : UnitRecord) (aid : AgentId) (ans : Answer) :
    (s.setUnit u r).answer aid ans = (s.answer aid ans).setUnit u r := (rfl)

@[simp] theorem State.setUnit_answerControl (s : State) (u : UnitId) (r : UnitRecord) (ans : Answer) :
    (s.setUnit u r).answerControl ans = (s.answerControl ans).setUnit u r := (rfl)

@[simp] theorem State.setPool_answer (s : State) (p : PoolId) (r : PoolRecord) (aid : AgentId) (ans : Answer) :
    (s.setPool p r).answer aid ans = (s.answer aid ans).setPool p r := (rfl)

@[simp] theorem State.setPool_answerControl (s : State) (p : PoolId) (r : PoolRecord) (ans : Answer) :
    (s.setPool p r).answerControl ans = (s.answerControl ans).setPool p r := (rfl)

@[simp] theorem State.setSlot_answer (s : State) (i : SlotId) (x : Slot) (aid : AgentId) (ans : Answer) :
    (s.setSlot i x).answer aid ans = (s.answer aid ans).setSlot i x := (rfl)

@[simp] theorem State.setSlot_answerControl (s : State) (i : SlotId) (x : Slot) (ans : Answer) :
    (s.setSlot i x).answerControl ans = (s.answerControl ans).setSlot i x := (rfl)

@[simp] theorem State.setAgent_answer (s : State) (b : AgentId) (r : AgentRecord) (aid : AgentId) (ans : Answer) :
    (s.setAgent b r).answer aid ans = (s.answer aid ans).setAgent b r := (rfl)

@[simp] theorem State.setAgent_answerControl (s : State) (b : AgentId) (r : AgentRecord) (ans : Answer) :
    (s.setAgent b r).answerControl ans = (s.answerControl ans).setAgent b r := (rfl)

@[simp] theorem State.setNotice_answer (s : State) (b : AgentId) (q : NoticeQueue) (aid : AgentId) (ans : Answer) :
    (s.setNotice b q).answer aid ans = (s.answer aid ans).setNotice b q := (rfl)

@[simp] theorem State.setNotice_answerControl (s : State) (b : AgentId) (q : NoticeQueue) (ans : Answer) :
    (s.setNotice b q).answerControl ans = (s.answerControl ans).setNotice b q := (rfl)

@[simp] theorem State.setTimer_answer (s : State) (t : Timer) (aid : AgentId) (ans : Answer) :
    (s.setTimer t).answer aid ans = (s.answer aid ans).setTimer t := (rfl)

@[simp] theorem State.setTimer_answerControl (s : State) (t : Timer) (ans : Answer) :
    (s.setTimer t).answerControl ans = (s.answerControl ans).setTimer t := (rfl)

@[simp] theorem State.writeRecord_answer (s : State) (i : SlotId) (r : Option Record) (aid : AgentId) (ans : Answer) :
    (s.writeRecord i r).answer aid ans = (s.answer aid ans).writeRecord i r := (rfl)

@[simp] theorem State.writeRecord_answerControl (s : State) (i : SlotId) (r : Option Record) (ans : Answer) :
    (s.writeRecord i r).answerControl ans = (s.answerControl ans).writeRecord i r := (rfl)

@[simp] theorem State.loadRecord_answer (s : State) (i : SlotId) (r : Option Record) (aid : AgentId) (ans : Answer) :
    (s.loadRecord i r).answer aid ans = (s.answer aid ans).loadRecord i r := (rfl)

@[simp] theorem State.loadRecord_answerControl (s : State) (i : SlotId) (r : Option Record) (ans : Answer) :
    (s.loadRecord i r).answerControl ans = (s.answerControl ans).loadRecord i r := (rfl)

/-! ### The handle check -/

/-- The handle check finds the record that ARG0 names (R33). -/
theorem State.checkHandle_names {s : State} {aid : AgentId} {i : SlotId} {r : Record} (h : Names s aid i r) :
    s.checkHandle aid (s.station aid).arg0 = some (i, r) := by
  obtain ⟨h1, h2, h3, h4⟩ := h
  have h5 : slotOf (bitField (s.station aid).arg0 0 8) = some i := by rw [h3]; simp [slotOf, i.isLt]
  simp [State.checkHandle, h5, h1, h2, h4]

/-- A command that names a live record of its agent by handle runs on that record (R33, R89). -/
theorem withHandle_names {s : State} {aid : AgentId} {i : SlotId} {r : Record} (code : Word) (ready : Ready aid s)
    (attached : s.isAttached aid = true) (names : Names s aid i r) (body : State → SlotId → Record → State) :
    atAgentStation code aid (fun s => s.withHandle aid (body s)) s = .next (body (s.taken aid code) i r) := by
  rw [atAgentStation_ready ready]
  have found : (s.taken aid code).checkHandle aid ((s.taken aid code).station aid).arg0 = some (i, r) := by
    have h := State.checkHandle_names names
    simpa [State.checkHandle] using h
  simp only [State.withHandle, found]
  simp [attached]

end Sys2Proof.Machine
end

