-- ==== Sys2Proof/Tests/Slice0.lean ====
section
/-! SUPPORT. The author's tests: the smoke test of WellFormed, one step of each command and event on the small
situations of the spec's worked examples, and a state that meets the hypotheses of each statement. -/

namespace Sys2Proof.Tests

open Sys2Proof Sys2Proof.Machine

set_option Elab.async false
set_option synthInstance.maxSize 1000
set_option synthInstance.maxHeartbeats 200000

/-! ### Small situations -/

/-- The next state of a result. -/
def after (r : Result) : State :=
  match r with
  | .next s => s
  | .fault _ => State.reset
  | .refused _ => State.reset

/-- The agents are ATTACHED, with attention on. -/
def attached (s : State) (as : List AgentId) : State :=
  as.foldl (fun s a =>
    (s.setAgent a { s.agent a with state := .attached }).setNotice a { s.notice a with attention := true }) s

/-- Unit u is changed. -/
def unit (s : State) (u : UnitId) (f : UnitRecord → UnitRecord) : State := s.setUnit u (f (s.unit u))

/-- Unit u is OPEN with a capacity, the rest of its configuration at the defaults. -/
def openUnit (s : State) (u : UnitId) (capacity : Nat) : State :=
  unit s u fun x => { x with state := .opened, config := { x.config with capacity := capacity } }

/-- A slot holds a record under a serial; a waiting record joins the tail of its queue. -/
def put (s : State) (i : SlotId) (serial : Serial) (a : AgentId) (mode : Mode) (x : Standing) : State :=
  let s := s.setSlot i ⟨serial, some ⟨a, mode, x⟩⟩
  match x with
  | .waiting (.unit u) _ _ => unit s u fun y => { y with queue := y.queue ++ [i] }
  | .waiting (.pool p) _ _ => s.setPool p { s.pool p with queue := (s.pool p).queue ++ [i] }
  | .held .. | .recalled .. | .spent .. => s

/-- A notice stands at the tail of agent a's queue. -/
def noted (s : State) (a : AgentId) (kind : NoticeKind) (i : SlotId) (t : Target) : State :=
  s.setNotice a { s.notice a with entries := (s.notice a).entries ++ [⟨kind, s.handle i, t⟩] }

/-- Agent a's argument words. -/
def args (s : State) (a : AgentId) (x y z : Word) : State :=
  s.setStation a { s.station a with arg0 := x, arg1 := y, arg2 := z }

/-- The control station's argument words. -/
def asks (s : State) (x y z : Word) : State := s.setControl { s.control with arg0 := x, arg1 := y, arg2 := z }

/-- Status, RESP0 and RESP1 of an agent's station. -/
def answerOf (s : State) (a : AgentId) : Word × Word × Word :=
  ((s.station a).stat, (s.station a).resp0, (s.station a).resp1)

/-- Status, RESP0 and RESP1 of the control station. -/
def controlAnswer (s : State) : Word × Word × Word := (s.control.stat, s.control.resp0, s.control.resp1)

/-- The kinds and slots of an agent's notices. -/
def noticesOf (s : State) (a : AgentId) : List (NoticeKind × SlotId) :=
  (s.notice a).entries.map fun n => (n.kind, n.handle.slot)

/-! ### WellFormed: an ill-formed term for each check -/

theorem test_wellFormed_undefinedCommand :
    (Instr.undefinedCommand 3 .agent 0x0F).wellFormed = true ∧ (Instr.undefinedCommand 3 .agent 0x0E).wellFormed = false ∧
    (Instr.undefinedCommand 0 .control 0x20).wellFormed = true ∧
    (Instr.undefinedCommand 0 .control 0x121).wellFormed = false := by decide

theorem test_wellFormed_argumentWrite :
    (Instr.argumentWrite 3 2 0).wellFormed = true ∧ (Instr.argumentWrite 3 3 0).wellFormed = false ∧
    (Instr.argumentWrite 0 19 0).wellFormed = false := by decide

theorem test_wellFormed_busyStationWrite :
    (Instr.busyStationWrite 3 3 0).wellFormed = true ∧ (Instr.busyStationWrite 3 4 0).wellFormed = false := by decide

theorem test_wellFormed_controlWindowRefused :
    (Instr.controlWindowRefused 3 22 .read).wellFormed = true ∧
    (Instr.controlWindowRefused 3 23 .read).wellFormed = false ∧
    (Instr.controlWindowRefused 3 15 .read).wellFormed = false := by decide

/-! ### The host's two functions -/

theorem test_decodeTableWord : decodeTableWord 8 3 = none ∧ State.reset.withFetchWord 8 3 = State.reset := ⟨rfl, rfl⟩

/-! ### Sessions (chapter 8) -/

theorem test_attach :
    let t := after (exec (.attach 3) State.reset)
    t.isAttached 3 = true ∧ (t.notice 3).attention = true ∧ answerOf t 3 = (0, 0x006, 0) ∧ (t.station 3).cmd = 1 := by
  decide +kernel

/-- 08 section 8.7 before its first step. -/
def walk : State :=
  let s := attached State.reset [2, 4, 6, 7, 8]
  let s := openUnit (openUnit (openUnit s 30 2) 22 1) 10 1
  let s := put s 1 3 4 .shared (.held 30 1 (some 80))
  let s := put s 2 1 8 .shared (.held 30 1 none)
  let s := unit s 30 fun x => { x with mark := some 2 }
  let s := put s 3 2 4 .exclusive (.held 22 2 (some 40))
  let s := put s 8 1 6 .exclusive (.waiting (.unit 22) 0 none)
  let s := put s 6 1 7 .exclusive (.held 10 1 none)
  let s := put s 5 1 4 .exclusive (.waiting (.unit 10) 0 none)
  let s := put s 9 1 2 .exclusive (.waiting (.unit 10) 0 none)
  let s := put s 7 1 4 .exclusive (.spent (.lease 15) .expired)
  noted (noted s 4 .granted 1 (.unit 30)) 4 .expired 7 (.unit 15)

/-- The same after step 1: agent 4 is DETACHING. -/
def walking : State :=
  let s := walk.setSlot 7 ⟨1, none⟩
  (s.setAgent 4 { s.agent 4 with state := .detaching }).setNotice 4 { s.notice 4 with entries := [] }

/-- The same after step 2. -/
def walkingHolds : State := unit (walking.setSlot 5 ⟨1, none⟩) 10 fun x => { x with queue := [9] }

/-- The same after step 4. -/
def walkingLast : State :=
  unit ((walkingHolds.setSlot 3 ⟨2, none⟩).setSlot 8 ⟨1, some ⟨6, .exclusive, .held 22 1 none⟩⟩) 22
    fun x => { x with queue := [] }

theorem test_detach :
    let t := after (exec (.detach 4) walk)
    (t.agent 4).state = .detaching ∧ t.readWord 4 6 = 0x80000006 ∧ t.slot 7 = ⟨1, none⟩ ∧ noticesOf t 4 = [] ∧
      t.atn 4 = false ∧ t.recordCount 4 = 3 ∧ (t.unit 10).queue = [5, 9] := by decide +kernel

theorem test_detachAgent :
    let t := after (exec (.detachAgent 0) (asks walk 4 0 0))
    (t.agent 4).state = .detaching ∧ controlAnswer t = (0, 0, 0) ∧ (t.station 4).cmd = 0 ∧ t.busy 4 = true := by
  decide +kernel

theorem test_withdrawalStep :
    let t := after (exec (.withdrawalStep 4) walking)
    (t.unit 10).queue = [9] ∧ t.slot 5 = ⟨1, none⟩ ∧ t.holders 10 = [6] ∧ t.recordCount 4 = 2 := by decide +kernel

theorem test_holdingStep :
    let t := after (exec (.holdingStep 4) walkingHolds)
    t.record 8 = some ⟨6, .exclusive, .held 22 1 none⟩ ∧ noticesOf t 6 = [(.granted, 8)] ∧ t.record 3 = none ∧
      t.record 1 ≠ none ∧ t.busy 4 = true := by decide +kernel

theorem test_holdingStep_last :
    let t := after (exec (.holdingStep 4) walkingLast)
    t.record 2 = some ⟨8, .exclusive, .held 30 1 none⟩ ∧ (t.unit 30).mark = none ∧ noticesOf t 8 = [(.upgraded, 2)] ∧
      (t.agent 4).state = .detached ∧ t.readWord 4 6 = 0 ∧ t.detached.get 4 = true := by decide +kernel

theorem test_walkEnd :
    let t := after (exec (.walkEnd 4) (walkingLast.setSlot 1 ⟨3, none⟩))
    (t.agent 4).state = .detached ∧ t.detached.get 4 = true ∧ answerOf t 4 = (0, 0, 0) := by decide +kernel

theorem test_setQuota :
    let t := after (exec (.setQuota 0) (asks walk 4 4 0))
    (t.agent 4).quota = 4 ∧ controlAnswer t = (0, 0x404, 0) ∧
      controlAnswer (after (exec (.setQuota 0) (asks walk 4 3 0))) = (0x00041607, 0, 0) := by decide +kernel

/-! ### Acquiring (chapters 3 and 10) -/

/-- 10 section 10.5: unit 12, limit 200, slot 0 at serial 4. -/
def station3 : State :=
  let s := attached State.reset [3]
  let s := unit (openUnit s 12 1) 12 fun x => { x with config := { x.config with limit := some 200 } }
  args (s.setSlot 0 ⟨4, none⟩) 3 0x10C 0x64 0

theorem test_acquire_granted :
    (after (exec (.acquire 3) station3)).station 3 =
      ⟨0x0000010C, 0x00000064, 0, 3, 0x000C0500, 0x00640162, 0x00000001⟩ := by decide +kernel

/-- 03 section 3.8 before step 3. -/
def shared30 : State :=
  let s := attached State.reset [1, 2, 4, 6]
  let s := unit (openUnit s 30 3) 30 fun x => { x with config := { x.config with limit := some 500 } }
  let s := put s 0 1 1 .shared (.held 30 1 (some 100))
  put s 1 1 2 .exclusive (.waiting (.unit 30) 0 none)

theorem test_acquire_unavailable :
    let t := after (exec (.acquire 4) (args shared30 4 0x1E 50 0))
    answerOf t 4 = (0x001E0F07, 0, 0) ∧ t.slot 2 = ⟨1, none⟩ ∧ (t.unit 30).queue = [1] ∧ t.holders 30 = [0] := by
  decide +kernel

/-- 03 section 3.9, with agent 9's hold on unit 41. -/
def pool1 : State :=
  let s := attached State.reset [3, 8, 9]
  let s := openUnit (openUnit s 40 1) 41 1
  let s := unit s 40 fun x => { x with config := { x.config with pool := some 1, limit := some 100 } }
  let s := unit s 41 fun x => { x with config := { x.config with pool := some 1 } }
  let s := put s 5 4 3 .exclusive (.held 40 1 none)
  let s := put s 6 2 9 .exclusive (.held 41 1 none)
  put s 7 3 8 .exclusive (.waiting (.pool 1) 0 none)

theorem test_acquireAny :
    let t := after (exec (.acquireAny 3) (args pool1 3 1 7 20))
    answerOf t 3 = (2, 0x00810100, 0) ∧ (t.pool 1).queue = [7, 0] ∧
      t.record 0 = some ⟨3, .exclusive, .waiting (.pool 1) 7 (some 20)⟩ := by decide +kernel

theorem test_release_serves_the_pool :
    let t := after (exec (.release 3) (args pool1 3 0x0405 0 0))
    answerOf t 3 = (0, 0x00280000, 0) ∧ t.record 7 = some ⟨8, .exclusive, .held 40 1 (some 100)⟩ ∧
      (t.pool 1).queue = [] ∧ noticesOf t 8 = [(.granted, 7)] ∧ t.slot 5 = ⟨4, none⟩ := by decide +kernel

/-! ### The grant arbiter (chapter 4) -/

/-- 04 section 4.10 before its first step. -/
def ring12 : State :=
  let s := attached State.reset [2, 3, 5, 7, 9, 14]
  let s := unit (openUnit s 12 2) 12 fun x => { x with config := { x.config with order := .ring, rotate := true } }
  let s := put s 0 1 7 .exclusive (.held 12 1 none)
  let s := put s 1 1 9 .shared (.waiting (.unit 12) 0 none)
  let s := put s 2 1 3 .shared (.waiting (.unit 12) 0 none)
  let s := put s 3 1 14 .exclusive (.waiting (.unit 12) 0 none)
  put s 4 1 5 .shared (.waiting (.unit 12) 0 none)

/-- Section 4.10 after step 4: agent 14 is held. -/
def ring12Late : State :=
  let s := ((ring12.setSlot 0 ⟨1, none⟩).setSlot 2 ⟨1, none⟩).setSlot 4 ⟨1, none⟩
  let s := put s 1 1 9 .shared (.held 12 1 none)
  let s := s.setAgent 14 { s.agent 14 with held := true }
  unit s 12 fun x => { x with queue := [3], bottom := 9 }

theorem test_a_pass_ranks_a_ring :
    let t := (ring12.setSlot 0 ⟨1, none⟩).unitPass none 12
    t.holders 12 = [2, 4] ∧ (t.unit 12).queue = [1, 3] ∧ (t.unit 12).bottom = 5 ∧ noticesOf t 3 = [(.granted, 2)] ∧
      noticesOf t 5 = [(.granted, 4)] := by decide +kernel

theorem test_holdAgent :
    let t := after (exec (.holdAgent 0) (asks (unit ring12Late 12 fun x => { x with bottom := 15 }) 9 0 0))
    (t.agent 9).held = true ∧ controlAnswer t = (0, 0, 0) ∧ t.holders 12 = [1] := by decide +kernel

theorem test_resumeAgent :
    let t := after (exec (.resumeAgent 0) (asks ring12Late 14 0 0))
    (t.agent 14).held = false ∧ controlAnswer t = (0, 1, 0) ∧ t.holders 12 = [1] ∧ (t.unit 12).queue = [3] := by
  decide +kernel

/-- An agent whose flag already stands as asked has a wait, and the answer carries no item (R149, R150, R175). -/
theorem test_holdAgent_again :
    let t := after (exec (.holdAgent 0) (asks ring12Late 14 0 0))
    (t.agent 14).held = true ∧ controlAnswer t = (0, 0, 0) ∧ t.waitsOf 14 = [3] := by decide +kernel

theorem test_resumeAgent_again :
    let t := after (exec (.resumeAgent 0) (asks ring12 14 0 0))
    (t.agent 14).held = false ∧ controlAnswer t = (0, 0, 0) ∧ t.waitsOf 14 = [3] := by decide +kernel

theorem test_setBottom :
    let t := after (exec (.setBottom 0) (asks ring12 0 12 8))
    (t.unit 12).bottom = 8 ∧ controlAnswer t = (0, 0, 0) ∧
      t.rank .ring 8 (t.unit 12).queue = [1, 3, 2, 4] := by decide +kernel

theorem test_queryUnit :
    answerOf (after (exec (.queryUnit 2) (args ring12 2 12 0 0))) 2 = (0, 0xF0040211, 0) := by decide +kernel

/-- 04 section 4.11 after step 1. -/
def upgrade20 : State :=
  let s := attached State.reset [1, 2, 4, 6]
  let s := openUnit s 20 3
  let s := put s 10 1 1 .shared (.held 20 1 none)
  let s := put s 11 1 2 .shared (.held 20 1 none)
  let s := put s 12 1 4 .exclusive (.waiting (.unit 20) 0 none)
  let s := put s 13 1 6 .shared (.waiting (.unit 20) 0 none)
  unit s 20 fun x => { x with mark := some 10 }

/-- Section 4.11 after step 2. -/
def upgrade20Batch : State := unit (upgrade20.setSlot 12 ⟨1, none⟩) 20 fun x => { x with queue := [13] }

theorem test_probe :
    answerOf (after (exec (.probe 4) (args upgrade20Batch 4 20 0 0))) 4 = (0, 0x8600010D, 0x00020000) := by decide +kernel

theorem test_cancel_a_pending_upgrade :
    let t := after (exec (.cancel 1) (args upgrade20Batch 1 0x010A 0 0))
    answerOf t 1 = (0, 0x00140000, 0) ∧ (t.unit 20).mark = none ∧ t.holders 20 = [10, 11, 13] := by decide +kernel

theorem test_downgrade :
    let s := put (unit (upgrade20Batch.setSlot 11 ⟨1, none⟩) 20 fun x => { x with mark := none }) 10 1 1 .exclusive
      (.held 20 1 none)
    let t := after (exec (.downgrade 1) (args s 1 0x010A 0 0))
    answerOf t 1 = (0, 0x00140000, 0) ∧ t.holders 20 = [10, 13] ∧ t.holderMode 20 = some .shared ∧
      noticesOf t 6 = [(.granted, 13)] := by decide +kernel

/-- 04 section 4.12 after its first step. -/
def band50 : State :=
  let s := attached State.reset [1, 2, 8, 10, 12]
  let s := { s with ceiling := 51 }
  let s := [2, 10, 12].foldl (fun s a => s.setAgent a { s.agent a with clearance := true }) s
  let s := openUnit (openUnit s 50 1) 51 1
  let s := unit s 50 fun x => { x with config := { x.config with pool := some 3 } }
  let s := unit s 51 fun x => { x with config := { x.config with pool := some 3 } }
  let s := put s 23 1 1 .exclusive (.held 50 1 none)
  let s := put s 22 1 12 .exclusive (.held 51 1 none)
  let s := put s 20 1 8 .exclusive (.waiting (.pool 3) 0 none)
  put s 21 1 10 .exclusive (.waiting (.pool 3) 0 none)

theorem test_setBand :
    (after (exec (.setBand 0) (asks band50 64 0 0))).ceiling = 64 ∧
      controlAnswer (after (exec (.setBand 0) (asks band50 50 0 0))) = (0x00321507, 0, 0) := by decide +kernel

theorem test_setClearance :
    let t := after (exec (.setClearance 0) (asks (band50.setSlot 22 ⟨1, none⟩) 8 1 0))
    (t.agent 8).clearance = true ∧ controlAnswer t = (0, 0x108, 0) ∧ t.holders 51 = [20] ∧ (t.pool 3).queue = [21] := by
  decide +kernel

/-! ### Holding (chapter 5) -/

/-- 05 section 5.8 before its first step. -/
def nested7 : State :=
  let s := openUnit (attached State.reset [4, 11]) 7 1
  let s := put s 9 3 4 .exclusive (.held 7 2 (some 2))
  put s 14 1 11 .exclusive (.waiting (.unit 7) 0 none)

theorem test_release_a_level :
    let t := after (exec (.release 4) (args nested7 4 0x0309 0 0))
    answerOf t 4 = (0, 0x00070000, 0x100) ∧ t.record 9 = some ⟨4, .exclusive, .held 7 1 (some 2)⟩ := by decide +kernel

theorem test_renew :
    let t := after (exec (.renew 4) (args nested7 4 0x0309 50 0))
    answerOf t 4 = (0, 0x00070000, 0x00320000) ∧ t.record 9 = some ⟨4, .exclusive, .held 7 2 (some 50)⟩ := by
  decide +kernel

theorem test_queryLease :
    answerOf (after (exec (.queryLease 4) (args nested7 4 0x0309 0 0))) 4 = (0, 0x00070000, 0x00020262) ∧
      answerOf (after (exec (.queryLease 4) (args nested7 4 0x0409 0 0))) 4 = (4, 0, 0) := by decide +kernel

/-- 05 section 5.9 before its first step. -/
def sharers25 : State :=
  let s := openUnit (attached State.reset [1, 6, 9]) 25 2
  let s := put s 30 2 1 .shared (.held 25 1 none)
  let s := put s 31 5 6 .shared (.held 25 1 none)
  put s 32 1 9 .shared (.waiting (.unit 25) 0 none)

theorem test_upgrade_queued :
    let t := after (exec (.upgrade 1) (args sharers25 1 0x021E 0 0))
    answerOf t 1 = (2, 0x0019021E, 0) ∧ (t.unit 25).mark = some 30 ∧ t.upgradePending 30 = true := by decide +kernel

theorem test_upgrade_conflict :
    let s := unit sharers25 25 fun x => { x with mark := some 30 }
    answerOf (after (exec (.upgrade 6) (args s 6 0x051F 0 0))) 6 = (0x00191207, 0, 0) := by decide +kernel

/-! ### Lease time (chapter 6) -/

/-- 06 section 6.7 with the tick's four arrivals in flight. -/
def tick33 : State :=
  let s := openUnit (attached State.reset [2, 5, 7, 8]) 33 2
  let s := unit s 33 fun x => { x with config := { x.config with limit := some 10, grace := 3 } }
  let s := put s 40 1 2 .shared (.held 33 1 (some 1))
  let s := put s 41 1 5 .shared (.recalled 33 1 2)
  let s := put s 42 1 7 .exclusive (.waiting (.unit 33) 0 (some 1))
  let s := put s 43 1 8 .shared (.waiting (.unit 33) 0 (some 5))
  s.setTimer { s.timer with
    source := .internal, divider := 16, count := 15
    inFlight := [⟨40, false⟩, ⟨41, false⟩, ⟨42, false⟩, ⟨43, false⟩] }

theorem test_waitTimeout :
    let t := after (exec (.waitTimeout 42) tick33)
    t.record 42 = some ⟨7, .exclusive, .spent (.unitWait 33) .timedOut⟩ ∧ noticesOf t 7 = [(.timedOut, 42)] ∧
      (t.unit 33).queue = [43] := by decide +kernel

theorem test_leaseExpiry :
    let t := after (exec (.leaseExpiry 40) tick33)
    t.record 40 = some ⟨2, .shared, .spent (.lease 33) .expired⟩ ∧ noticesOf t 2 = [(.expired, 40)] ∧
      (t.unit 33).queue = [42, 43] ∧ t.holders 33 = [41] := by decide +kernel

theorem test_graceExpiry :
    let t := after (exec (.graceExpiry 41) (put tick33 41 1 5 .shared (.recalled 33 1 1)))
    t.record 41 = some ⟨5, .shared, .spent (.lease 33) .revoked⟩ ∧ noticesOf t 5 = [(.revoked, 41)] ∧
      t.holders 33 = [40] := by decide +kernel

theorem test_tickArrival :
    let t := after (exec (.tickArrival 41) tick33)
    t.record 41 = some ⟨5, .shared, .recalled 33 1 1⟩ ∧ t.timer.inFlight = [⟨40, false⟩, ⟨42, false⟩, ⟨43, false⟩] := by
  decide +kernel

theorem test_tickArrival_after_the_grant :
    let s := unit (put tick33 43 1 8 .shared (.held 33 1 (some 10))) 33 fun x => { x with queue := [42] }
    let s := s.setTimer { s.timer with inFlight := [⟨43, true⟩] }
    (after (exec (.tickArrival 43) s)).record 43 = some ⟨8, .shared, .held 33 1 (some 10)⟩ := by decide +kernel

theorem test_tick :
    let t := after (exec .tick (tick33.setTimer { tick33.timer with inFlight := [] }))
    t.timer.inFlight = [⟨40, false⟩, ⟨41, false⟩, ⟨42, false⟩, ⟨43, false⟩] ∧ t.timer.count = 0 := by decide +kernel

theorem test_clkRisingEdge :
    let s := tick33.setTimer { tick33.timer with source := .pin, count := 0, reference := none, inFlight := [] }
    let low := s.setTimer { s.timer with reference := some false }
    (after (exec (.clkRisingEdge true) s)).timer.inFlight = [] ∧
      (after (exec (.clkRisingEdge true) low)).timer.inFlight.length = 4 ∧
      (after (exec (.clkRisingEdge false) low)).timer.reference = some false := by decide +kernel

theorem test_setTick :
    let t := after (exec (.setTick 0) (asks tick33 2 65536 0))
    t.timer = { tick33.timer with divider := 65536, count := 0 } ∧ controlAnswer t = (0, 2, 0x10000) := by decide +kernel

/-! ### Notices (chapter 7) -/

/-- 07 section 7.8 after step 2. -/
def notices18 : State :=
  let s := openUnit (attached State.reset [3, 6]) 18 1
  let s := unit s 18 fun x => { x with config := { x.config with grace := 4 } }
  let s := put s 10 2 6 .exclusive (.held 18 1 none)
  let s := put s 11 1 6 .exclusive (.spent (.poolWait 2) .timedOut)
  noted (noted s 6 .granted 10 (.unit 18)) 6 .timedOut 11 (.pool 2)

/-- Section 7.8 after step 5. -/
def notices18Late : State :=
  let s := put notices18 10 2 6 .exclusive (.spent (.lease 18) .revoked)
  s.setNotice 6 { entries := [⟨.revoked, ⟨10, 2⟩, .unit 18⟩, ⟨.timedOut, ⟨11, 1⟩, .pool 2⟩], attention := false }

theorem test_recallLease :
    let t := after (exec (.recallLease 0) (asks notices18 10 0 0))
    t.record 10 = some ⟨6, .exclusive, .recalled 18 1 4⟩ ∧ noticesOf t 6 = [(.recalled, 10), (.timedOut, 11)] ∧
      controlAnswer t = (0, 0x0612020A, 3) := by decide +kernel

theorem test_setAttention :
    let t := after (exec (.setAttention 6) (args notices18 6 0 0 0))
    notices18.atn 6 = true ∧ t.atn 6 = false ∧ answerOf t 6 = (0, 0x200, 0) := by decide +kernel

theorem test_nextNotice :
    let t := after (exec (.nextNotice 6) notices18Late)
    answerOf t 6 = (0, 0x1512020A, 0) ∧ t.slot 10 = ⟨2, none⟩ ∧ noticesOf t 6 = [(.timedOut, 11)] ∧
      t.recordCount 6 = 1 := by decide +kernel

theorem test_cancel_a_spent_record :
    let t := after (exec (.cancel 6) (args notices18Late 6 0x010B 0 0))
    answerOf t 6 = (3, 0x00820000, 0x3000) ∧ t.slot 11 = ⟨1, none⟩ ∧ noticesOf t 6 = [(.revoked, 10)] := by decide +kernel

/-! ### Units and supervisory control (chapters 1 and 9) -/

theorem test_configureUnit :
    let t := after (exec (.configureUnit 0) (asks State.reset 12 0x0010001F 200))
    (t.unit 12).config =
        { pool := none, capacity := 1, order := .arrival, rotate := false, limit := some 200, grace := 16 } ∧
      controlAnswer t = (0, 0, 0) := by decide +kernel

theorem test_configurePool :
    let t := after (exec (.configurePool 0) (asks State.reset 3 0x500 0))
    t.pool 3 = { order := .ring, rotate := true, bottom := 15, queue := [] } ∧ controlAnswer t = (0, 0, 0) := by
  decide +kernel

/-- 09 section 9.8 before its first step. -/
def drain14 : State :=
  let s := openUnit (openUnit (attached State.reset [1, 2, 3, 5, 6, 7, 8]) 14 3) 15 1
  let s := unit s 14 fun x => { x with config := { x.config with grace := 2, pool := some 1 }, mark := some 20 }
  let s := unit s 15 fun x => { x with config := { x.config with pool := some 1 } }
  let s := put s 20 1 1 .shared (.held 14 1 (some 100))
  let s := put s 21 1 2 .shared (.held 14 2 none)
  let s := put s 22 3 3 .shared (.recalled 14 1 2)
  let s := put s 23 1 5 .shared (.waiting (.unit 14) 0 none)
  let s := put s 24 1 6 .exclusive (.waiting (.unit 14) 0 (some 30))
  let s := put s 25 1 7 .exclusive (.waiting (.pool 1) 0 none)
  let s := put s 26 1 8 .exclusive (.held 15 1 none)
  { s with controlAttention := true }

/-- Section 9.8 after step 5: 20/1 alone, its grace at 1, and the tick on its way. -/
def draining14 : State :=
  let s := ((((drain14.setSlot 21 ⟨1, none⟩).setSlot 22 ⟨3, none⟩).setSlot 23 ⟨1, none⟩).setSlot 24 ⟨1, none⟩)
  let s := put s 20 1 1 .shared (.recalled 14 1 1)
  let s := unit s 14 fun x => { x with state := .draining, queue := [], mark := none }
  (noted s 1 .recalled 20 (.unit 14)).setTimer { s.timer with source := .internal, inFlight := [⟨20, false⟩] }

/-- Section 9.8 after step 6. -/
def drained14 : State :=
  let s := put (unit draining14 14 fun x => { x with state := .offline }) 20 1 1 .shared (.spent (.lease 14) .revoked)
  s.addDrained 14

theorem test_drainUnit :
    let t := after (exec (.drainUnit 0) (asks drain14 14 0 0))
    controlAnswer t = (0, 0x02000202, 0) ∧ (t.unit 14).queue = [] ∧ (t.unit 14).mark = none ∧
      t.record 21 = some ⟨2, .shared, .recalled 14 2 2⟩ ∧ noticesOf t 6 = [(.withdrawn, 24)] ∧ t.catn = false := by
  decide +kernel

theorem test_graceExpiry_ends_a_drain :
    let t := after (exec (.graceExpiry 20) draining14)
    (t.unit 14).state = .offline ∧ t.drained.get 14 = true ∧ t.catn = true ∧ noticesOf t 1 = [(.revoked, 20)] := by
  decide +kernel

theorem test_drainCompletion :
    let t := after (exec (.drainCompletion 14) (draining14.setSlot 20 ⟨1, none⟩))
    (t.unit 14).state = .offline ∧ t.drained.get 14 = true := by decide +kernel

theorem test_readCompletions :
    let t := after (exec (.readCompletions 0) (asks drained14 0 0 0))
    controlAnswer t = (0, 0x00004000, 0) ∧ t.catn = false ∧
      controlAnswer (after (exec (.readCompletions 0) (asks drained14 1 0 0))) = (0, 0, 0x80000000) := by decide +kernel

theorem test_setControlAttention :
    let t := after (exec (.setControlAttention 0) (asks drained14 0 0 0))
    drained14.catn = true ∧ t.catn = false ∧ controlAnswer t = (0, 0x00000100, 0) := by decide +kernel

theorem test_openUnit :
    let t := after (exec (.openUnit 0) (asks drained14 14 0 0))
    t.record 25 = some ⟨7, .exclusive, .held 14 1 none⟩ ∧ noticesOf t 7 = [(.granted, 25)] ∧
      controlAnswer t = (0, 0, 0) := by decide +kernel

theorem test_restoreUnit :
    let t := after (exec (.restoreUnit 0) (asks draining14 14 0 0))
    (t.unit 14).state = .opened ∧ controlAnswer t = (0, 1, 0) := by decide +kernel

theorem test_recallUnit :
    let t := after (exec (.recallUnit 0) (asks (unit drain14 14 fun x => { x with mark := none }) 14 0 0))
    controlAnswer t = (0, 0x002, 0) ∧ t.record 22 = some ⟨3, .shared, .recalled 14 1 2⟩ ∧
      (t.unit 14).queue = [23, 24] := by decide +kernel

theorem test_resetLive :
    let t := after (exec (.resetLive 0) draining14)
    controlAnswer t = (0, 1, 0) ∧ t.record 25 = none ∧ (t.unit 14).state = .offline ∧ (t.unit 15).state = .opened ∧
      t.drained.get 14 = true ∧ t.slot 22 = ⟨3, none⟩ := by decide +kernel

theorem test_inspectRecord :
    controlAnswer (after (exec (.inspectRecord 0) (asks draining14 20 0 0))) = (0, 0x8E000101, 0x00010123) ∧
      controlAnswer (after (exec (.inspectRecord 0) (asks draining14 22 0 0))) = (0, 3, 0) := by decide +kernel

theorem test_listHolder :
    controlAnswer (after (exec (.listHolder 0) (asks drain14 14 2 0))) = (0, 0x83000316, 0x00000103) ∧
      controlAnswer (after (exec (.listHolder 0) (asks drain14 14 3 0))) = (0, 0, 0) := by decide +kernel

theorem test_freeze :
    let t := after (exec (.freeze 0) State.reset)
    t.frozen = true ∧ controlAnswer t = (0, 0, 0) ∧ controlAnswer (after (exec (.freeze 0) t)) = (0, 1, 0) := by
  decide +kernel

theorem test_hardwareReset :
    let t := after (exec .hardwareReset { drain14 with frozen := true })
    (t.unit 14).config = (drain14.unit 14).config ∧ (t.unit 14).state = .offline ∧ t.slot 22 = ⟨3, none⟩ ∧
      t.inReset = true ∧ t.readWord 3 31 = 0 := by decide +kernel

theorem test_hardwareResetRelease :
    let t := after (exec .hardwareResetRelease { State.reset with inReset := true })
    t.inReset = false ∧ t.readWord 3 31 = 0x64165A01 := by decide +kernel

theorem test_powerOn :
    let t := after (exec (.powerOn 5) drain14)
    t.supervisor = 5 ∧ t.clearance 5 = true ∧ t.clearance 0 = false ∧ t.slot 22 = ⟨0, none⟩ ∧
      (t.unit 14).config = UnitConfig.default := by decide +kernel

/-! ### The port (chapter 10) -/

theorem test_undefinedCommand :
    answerOf (after (exec (.undefinedCommand 3 .agent 0x0F) State.reset)) 3 = (0x107, 0, 0) ∧
      controlAnswer (after (exec (.undefinedCommand 0 .control 0x20) State.reset)) = (0x107, 0, 0) := by decide +kernel

theorem test_argumentWrite :
    ((after (exec (.argumentWrite 3 1 0x64) State.reset)).station 3).arg1 = 0x64 ∧
      after (exec (.argumentWrite 3 5 0x64) State.reset) = State.reset := by decide +kernel

theorem test_busyStationWrite :
    after (exec (.busyStationWrite 4 0 0x64) walking) = walking ∧
      after (exec (.busyStationWrite 4 3 0x01) walking) = walking := by decide +kernel

theorem test_controlWindowRefused :
    after (exec (.controlWindowRefused 3 19 (.write 0x30)) State.reset) =
        State.reset.setPort { err := true, data := none } ∧
      after (exec (.controlWindowRefused 3 22 .read) State.reset) =
        State.reset.setPort { err := true, data := some 0 } := by decide +kernel

/-! ### A state with a record of every kind

Ten records: HELD and RECALLED leases of several depths and countdowns, a unit wait and a pool wait, a SPENT record with
its notice, the records of a DETACHING agent (6), and a DRAINING unit (5) in the band of agents with clearance. -/

def bench : State :=
  let s := { attached State.reset [3, 4, 5] with ceiling := 5 }
  let s := s.setAgent 4 { s.agent 4 with clearance := true }
  let s := s.setAgent 6 { s.agent 6 with state := .detaching }
  let s := openUnit (openUnit (openUnit (openUnit (openUnit s 0 1) 1 3) 2 1) 3 1) 4 2
  let s := unit s 0 fun x => { x with config := { x.config with pool := some 2, limit := some 200 } }
  let s := unit s 1 fun x => { x with config := { x.config with grace := 0 } }
  let s := unit s 5 fun x => { x with state := .draining }
  let s := put s 0 1 3 .exclusive (.held 0 2 (some 50))
  let s := put s 1 2 3 .shared (.held 1 1 none)
  let s := put s 2 3 4 .shared (.held 1 15 (some 1))
  let s := put s 3 4 4 .exclusive (.waiting (.unit 0) 0 (some 7))
  let s := put s 4 5 5 .exclusive (.recalled 2 1 1)
  let s := put s 5 6 5 .exclusive (.spent (.lease 3) .expired)
  let s := put s 6 7 5 .exclusive (.waiting (.pool 2) 4095 none)
  let s := put s 7 8 6 .exclusive (.waiting (.unit 2) 10 (some 4094))
  let s := put s 8 9 6 .exclusive (.held 4 1 none)
  let s := put s 9 255 4 .exclusive (.recalled 5 3 255)
  let s := noted s 5 .expired 5 (.unit 3)
  s.setTimer { s.timer with
    source := .internal, divider := 16, count := 15, inFlight := [⟨2, false⟩, ⟨3, false⟩, ⟨0, true⟩] }

/-- The same with a pending upgrade on unit 1. -/
def marked (i : SlotId) : State := unit bench 1 fun x => { x with mark := some i }

/-- The same frozen. -/
def frozenBench : State := { bench with frozen := true }

/-- The wait queue of a target. -/
def queueOf (s : State) : Target → List SlotId
  | .unit u => (s.unit u).queue
  | .pool p => (s.pool p).queue

/-- A queue holds waits for its target, each once, of one agent each. -/
def queueChecks (s : State) (t : Target) (queue : List SlotId) : Bool :=
  decide queue.Nodup && queue.all (fun i => (s.record i).any fun r => r.isWaiting && r.target == t) &&
    queue.all fun i => queue.all fun j => decide (s.owner i = s.owner j → i = j)

/-- The checks of one queue, with the records that wait for its target, give QueueOf. -/
theorem queueOf_of_checks {s : State} {t : Target} {queue : List SlotId} (h : queueChecks s t queue = true)
    (all : ∀ i, ∀ r ∈ s.record i, r.isWaiting = true → r.target = t → i ∈ queue) : QueueOf s t queue := by
  simp only [queueChecks, Bool.and_eq_true, List.all_eq_true, decide_eq_true_eq] at h
  obtain ⟨⟨nodup, waits⟩, once⟩ := h
  refine ⟨nodup, fun i => ⟨fun hi => ?_, fun ⟨r, d, c, hr, hs⟩ => ?_⟩, fun i j hi hj e => once i hi j hj e⟩
  · have w := waits i hi
    obtain ⟨r, hr, w⟩ := (Option.any_eq_true _ _).1 w
    simp only [Bool.and_eq_true, beq_iff_eq] at w
    obtain ⟨waiting, rfl⟩ := w
    rcases hs : r.standing with ⟨t, d, c⟩ | _ | _ | _
    · refine ⟨r, d, c, hr, ?_⟩
      rw [hs]
      unfold Record.target
      cases t <;> simp [hs, Standing.claim, Claim.target]
    all_goals simp [Record.isWaiting, hs] at waiting
  · refine all i r hr ?_ ?_
    · simp [Record.isWaiting, hs]
    · cases t <;> simp [Record.target, hs, Standing.claim, Claim.target]

/-- The checks of all queues give QueueLaw. -/
theorem queueLaw_of_checks {s : State} (units : ∀ u, queueChecks s (.unit u) (s.unit u).queue = true)
    (pools : ∀ p, queueChecks s (.pool p) (s.pool p).queue = true)
    (all : ∀ i, ∀ r ∈ s.record i, r.isWaiting = true → i ∈ queueOf s r.target) : QueueLaw s :=
  ⟨fun u => queueOf_of_checks (units u) fun i r hr w e => by have h := all i r hr w; rw [e] at h; exact h,
    fun p => queueOf_of_checks (pools p) fun i r hr w e => by have h := all i r hr w; rw [e] at h; exact h⟩

/-- Queues, records and units alone decide QueueLaw. -/
theorem queueLaw_congr {s t : State} (h : QueueLaw s) (slots : t.slots = s.slots) (units : t.units = s.units)
    (pools : t.pools = s.pools) : QueueLaw t := by
  unfold QueueLaw QueueOf State.owner State.record State.slot State.unit State.pool at *
  rw [slots, units, pools]
  exact h

theorem bench_depth : DepthLaw bench := fun i r d h k =>
  (by decide +kernel : ∀ i, ∀ r ∈ bench.record i, ∀ d ∈ r.standing.depth, 1 ≤ d ∧ d ≤ 15) i r h d k

theorem marked_mark : MarkLaw (marked 2) := fun u i h =>
  (by decide +kernel : ∀ u, ∀ i ∈ ((marked 2).unit u).mark, ∃ r ∈ (marked 2).record i,
    r.isHeldOn u = true ∧ r.mode = Mode.shared) u i h

theorem bench_mark : MarkLaw bench := fun u i h =>
  (by decide +kernel : ∀ u, ∀ i ∈ (bench.unit u).mark, ∃ r ∈ bench.record i,
    r.isHeldOn u = true ∧ r.mode = Mode.shared) u i h

theorem bench_holders : HolderLaw bench := by
  have check : (∀ u, 1 ≤ (bench.unit u).config.capacity) ∧ ∀ i, ∀ r ∈ bench.record i, ∀ u ∈ r.holding,
      (bench.unit u).state ≠ .offline ∧ (bench.isShared i = false → bench.holders u = [i]) ∧
        (bench.holders u).countP bench.isShared ≤ (bench.unit u).config.capacity := by decide +kernel
  refine fun u => ⟨check.1 u, fun i hi hm => ?_, ?_, fun hs => ?_⟩
  · obtain ⟨r, hr, hu⟩ := (bench.mem_holders u i).1 hi
    exact (check.2 i r hr u hu).2.1 hm
  · rcases hh : bench.holders u with _ | ⟨i, rest⟩
    · simp
    · obtain ⟨r, hr, hu⟩ := (bench.mem_holders u i).1 (by rw [hh]; simp)
      rw [← hh]
      exact (check.2 i r hr u hu).2.2
  · rw [List.eq_nil_iff_forall_not_mem]
    intro i hi
    obtain ⟨r, hr, hu⟩ := (bench.mem_holders u i).1 hi
    exact (check.2 i r hr u hu).1 hs

theorem bench_queues : QueueLaw bench :=
  queueLaw_of_checks (by decide +kernel) (by decide +kernel) (by decide +kernel)

theorem bench_service : ServiceLaw bench := by
  have check : (∀ u, (bench.unit u).state ≠ .opened → (bench.unit u).queue = [] ∧ (bench.unit u).mark = none) ∧
      ∀ i, ∀ r ∈ bench.record i, ∀ u ∈ r.holding, (bench.unit u).state ≠ .offline ∧
        ((bench.unit u).state = .draining → r.isHeldOn u = false) := by decide +kernel
  refine fun u => ⟨fun hs => ⟨?_, check.1 u (by simp [hs])⟩, fun hs => ?_⟩
  · rw [List.eq_nil_iff_forall_not_mem]
    intro i hi
    obtain ⟨r, hr, hu⟩ := (bench.mem_holders u i).1 hi
    exact (check.2 i r hr u hu).1 hs
  · obtain ⟨hq, hm⟩ := check.1 u (by simp [hs])
    refine ⟨hq, hm, fun i r hr => ?_⟩
    by_contra held
    obtain ⟨d, c, hd⟩ := (r.isHeldOn_iff u).1 (by simpa using held)
    exact held ((check.2 i r hr u (by simp [Record.holding, hd])).2 hs)

theorem bench_quotas : QuotaLaw bench :=
  (by decide +kernel : ∀ a, bench.recordCount a ≤ (bench.agent a).quota ∧ (bench.agent a).quota ≤ 8)

theorem bench_sessions : SessionLaw bench :=
  ⟨fun i r h => (by decide +kernel : ∀ i, ∀ r ∈ bench.record i, (bench.agent r.agent).state ≠ .detached ∧
      (r.isSpent = true → (bench.agent r.agent).state = .attached)) i r h,
    (by decide +kernel : ∀ a, ((bench.agent a).state ≠ .attached → (bench.notice a).entries = []) ∧
      ((bench.agent a).state = .detaching → ∃ i, bench.owner i = some a))⟩

theorem bench_notices : NoticeLaw bench :=
  ⟨fun a n h => (by decide +kernel : ∀ a, ∀ n ∈ (bench.notice a).entries, ∃ r ∈ bench.record n.handle.slot,
      r.agent = a ∧ bench.handle n.handle.slot = n.handle ∧ r.isWaiting = false ∧ r.target = n.target) a n h,
    (by decide +kernel : ∀ a, ((bench.notice a).entries.map Notice.handle).Nodup),
    fun i r h => (by decide +kernel : ∀ i, ∀ r ∈ bench.record i, r.isSpent = true →
      bench.hasEntry r.agent i = true) i r h⟩

theorem bench_band : BandLaw bench := by
  have check : ∀ i, ∀ r ∈ bench.record i, r.isSpent = true ∨ ∀ u, r.target = .unit u → bench.bandPermits r.agent u = true := by
    decide +kernel
  intro i r u h k
  have ht : r.isSpent = false ∧ r.target = .unit u := by
    unfold Record.isSpent Record.target Record.holding at *
    rcases k with k | ⟨d, c, k⟩
    · cases hs : r.standing <;> simp_all [Standing.claim, Claim.target]
    · simp [k, Standing.claim, Claim.target]
  rcases check i r h with hs | hp
  · rw [ht.1] at hs; cases hs
  · exact hp u ht.2

theorem bench_ranges : RangeLaw bench :=
  ⟨fun u => (by decide +kernel : ∀ u, 1 ≤ (bench.unit u).config.capacity ∧ (bench.unit u).config.capacity ≤ 4 ∧
      (bench.unit u).config.grace ≤ 255 ∧ ∀ l ∈ (bench.unit u).config.limit, 1 ≤ l ∧ l ≤ 4095) u,
    by decide +kernel⟩

theorem bench_timer : TimerLaw bench :=
  (by decide +kernel : bench.timer.count < bench.timer.divider ∧
    (bench.timer.source ≠ .internal → bench.timer.count = 0) ∧
    (bench.timer.source ≠ .pin → bench.timer.reference = none))

theorem bench_arrivals : ArrivalLaw bench :=
  (by decide +kernel : ∀ a ∈ bench.timer.inFlight, a.stale = false → ∃ r ∈ bench.record a.slot,
    r.standing.countdown.isSome = true)

/-- The slots of `bench` that hold a record. -/
theorem bench_low (i : SlotId) (r : Record) (h : bench.record i = some r) : i ∈ ([0, 1, 2, 3, 4, 5, 6, 7, 8, 9] : List SlotId) :=
  (by decide +kernel : ∀ i, ∀ r ∈ bench.record i, i ∈ ([0, 1, 2, 3, 4, 5, 6, 7, 8, 9] : List SlotId)) i r h

theorem bench_records : [0, 1, 2, 3, 4, 5, 6, 7, 8, 9].map bench.record =
    [some ⟨3, .exclusive, .held 0 2 (some 50)⟩, some ⟨3, .shared, .held 1 1 none⟩,
      some ⟨4, .shared, .held 1 15 (some 1)⟩, some ⟨4, .exclusive, .waiting (.unit 0) 0 (some 7)⟩,
      some ⟨5, .exclusive, .recalled 2 1 1⟩, some ⟨5, .exclusive, .spent (.lease 3) .expired⟩,
      some ⟨5, .exclusive, .waiting (.pool 2) 4095 none⟩, some ⟨6, .exclusive, .waiting (.unit 2) 10 (some 4094)⟩,
      some ⟨6, .exclusive, .held 4 1 none⟩, some ⟨4, .exclusive, .recalled 5 3 255⟩] := by decide +kernel

/-- What a property of `bench`'s records comes to. -/
theorem bench_each {P : SlotId → Record → Prop} (h0 : P 0 ⟨3, .exclusive, .held 0 2 (some 50)⟩)
    (h1 : P 1 ⟨3, .shared, .held 1 1 none⟩) (h2 : P 2 ⟨4, .shared, .held 1 15 (some 1)⟩)
    (h3 : P 3 ⟨4, .exclusive, .waiting (.unit 0) 0 (some 7)⟩) (h4 : P 4 ⟨5, .exclusive, .recalled 2 1 1⟩)
    (h5 : P 5 ⟨5, .exclusive, .spent (.lease 3) .expired⟩) (h6 : P 6 ⟨5, .exclusive, .waiting (.pool 2) 4095 none⟩)
    (h7 : P 7 ⟨6, .exclusive, .waiting (.unit 2) 10 (some 4094)⟩) (h8 : P 8 ⟨6, .exclusive, .held 4 1 none⟩)
    (h9 : P 9 ⟨4, .exclusive, .recalled 5 3 255⟩) (i : SlotId) (r : Record) (h : bench.record i = some r) : P i r := by
  have all := bench_records
  simp only [List.map_cons, List.map_nil, List.cons.injEq, and_true] at all
  obtain ⟨e0, e1, e2, e3, e4, e5, e6, e7, e8, e9⟩ := all
  have low := bench_low i r h
  simp only [List.mem_cons, List.not_mem_nil, or_false] at low
  rcases low with rfl | rfl | rfl | rfl | rfl | rfl | rfl | rfl | rfl | rfl <;>
    first
    | (obtain rfl := Option.some.inj (e0.symm.trans h); assumption)
    | (obtain rfl := Option.some.inj (e1.symm.trans h); assumption)
    | (obtain rfl := Option.some.inj (e2.symm.trans h); assumption)
    | (obtain rfl := Option.some.inj (e3.symm.trans h); assumption)
    | (obtain rfl := Option.some.inj (e4.symm.trans h); assumption)
    | (obtain rfl := Option.some.inj (e5.symm.trans h); assumption)
    | (obtain rfl := Option.some.inj (e6.symm.trans h); assumption)
    | (obtain rfl := Option.some.inj (e7.symm.trans h); assumption)
    | (obtain rfl := Option.some.inj (e8.symm.trans h); assumption)
    | (obtain rfl := Option.some.inj (e9.symm.trans h); assumption)

theorem bench_countdowns : CountdownLaw bench := by
  apply bench_each <;> simp [Standing.countdownInRange]

theorem bench_kinds : KindLaw bench := by
  apply bench_each <;> simp [Claim.mayEndAs]

theorem bench_oneHold : OneHoldLaw bench := by
  have check : ∀ i ∈ ([0, 1, 2, 3, 4, 5, 6, 7, 8, 9] : List SlotId), ∀ j ∈ ([0, 1, 2, 3, 4, 5, 6, 7, 8, 9] : List SlotId),
      ∀ r ∈ bench.record i, ∀ q ∈ bench.record j, r.agent = q.agent → ∀ u ∈ r.holding,
        (q.holding = some u → i = j) ∧ (q.isWaiting = true → q.target ≠ .unit u) := by decide +kernel
  refine ⟨fun i j r q u hi hj e hr hq => ?_, fun i j r q u d c hi hj e hr hq => ?_⟩
  · exact (check i (bench_low i r hi) j (bench_low j q hj) r hi q hj e u hr).1 hq
  · exact (check i (bench_low i r hi) j (bench_low j q hj) r hi q hj e u hr).2 (by simp [Record.isWaiting, hq])
      (by simp [Record.target, hq, Standing.claim, Claim.target])

theorem bench_served : ServedLaw bench :=
  (by decide +kernel : ∀ u, (bench.unit u).state = .opened → bench.holders u = [] → ∀ i ∈ (bench.unit u).queue,
    bench.eligible i u = false)

/-! ### Witnesses: the hypotheses of each statement are met

Each theorem names the statement whose hypotheses, clause by clause, the states and operands it shows meet. -/

theorem witness_StepTakesTheFrontCommand :
    ({ bench with pending := [.tick, .attach 3] } : State).pending = .tick :: [.attach 3] ∧ bench.pending = [] :=
  ⟨rfl, by decide +kernel⟩

theorem witness_EveryCommandCompletes :
    (∀ x, Instr.tick ≠ .powerOn x) ∧ Instr.powerOn 15 ≠ .hardwareReset ∧ Instr.powerOn 15 ≠ .hardwareResetRelease := by
  decide

theorem witness_CommandCodes :
    commandOf .agent 15 ((0xFFFFFF01#32).toNat % 256) = some (.attach 15) ∧
      commandOf .agent 3 ((0x0E#32).toNat % 256) = some (.setAttention 3) ∧
      commandOf .control 3 ((0x121#32).toNat % 256) = some (.configureUnit 3) ∧
      commandOf .control 0 ((0x35#32).toNat % 256) = some (.listHolder 0) ∧
    Ready 3 bench ∧ commandOf .agent 3 ((0x00#32).toNat % 256) = none ∧
      commandOf .agent 3 ((0x0F#32).toNat % 256) = none ∧ commandOf .agent 3 ((0xFF#32).toNat % 256) = none ∧
    Supervises 0 bench ∧ commandOf .control 0 ((0x20#32).toNat % 256) = none ∧
      commandOf .control 0 ((0x36#32).toNat % 256) = none := by decide +kernel

/-- The port answers agent 3, whose station is READY, agent 6, whose station is BUSY, and agent 0, the supervisor. -/
theorem witness_StationWords :
    bench.inReset = false ∧ bench.busy 3 = false ∧ bench.busy 6 = true ∧ (0 : AgentId) = bench.supervisor ∧
      (3 : AgentId) ≠ bench.supervisor := by decide +kernel

theorem witness_BusyStation :
    bench.inReset = false ∧ bench.busy 6 = true ∧ agentCommand 6 0x01 = some (.attach 6) ∧
      agentCommand 6 0x0E = some (.setAttention 6) ∧ bench.busy 3 = false := by decide +kernel

theorem witness_ControlWindow :
    bench.inReset = false ∧ (15 : AgentId) ≠ bench.supervisor ∧ controlCommand 15 0x21 = some (.configureUnit 15) ∧
      controlCommand 15 0x35 = some (.listHolder 15) := by decide +kernel

theorem witness_PartInReset :
    ({ bench with inReset := true } : State).inReset = true ∧ Instr.attach 3 ≠ .hardwareReset ∧
      Instr.attach 3 ≠ .hardwareResetRelease ∧ (∀ x, Instr.attach 3 ≠ .powerOn x) ∧
      ∀ a o, Instr.attach 3 ≠ .controlWindowRefused a o .read :=
  ⟨rfl, by decide, by decide, by decide, nofun⟩

/-- RESET_LIVE meets a part with a DRAINING unit, a DETACHING agent, live and stale arrivals. -/
theorem witness_ResetLive :
    Supervises 0 bench ∧ (bench.unit 5).state = .draining ∧ (bench.agent 6).state = .detaching ∧
      ⟨2, false⟩ ∈ bench.timer.inFlight := by decide +kernel

/-- Field widths up to the whole word, and a record at the largest depth and countdown. -/
theorem witness_WordFormats :
    (0 + 32 ≤ 32 ∧ 31 < 32 ∧ 28 + 4 ≤ 32) ∧
    (Standing.held 63 15 (some 4095)).depth.getD 0 ≤ 15 ∧ (Standing.held 63 15 (some 4095)).countdown.getD 0 ≤ 4095 ∧
    7 ≤ 7 ∧ Reason.quotaInUse ≤ 22 ∧ 63 ≤ 63 := by decide

theorem witness_Attach :
    Ready 3 bench ∧ (bench.agent 3).state = .attached ∧ Ready 7 bench ∧ (bench.agent 7).state = .detached ∧
      0 < (bench.agent 7).quota ∧
    (∀ n ∈ [0, 1], let s := bench.setAgent 7 { bench.agent 7 with quota := n };
      Ready 7 s ∧ (s.agent 7).state = .detached ∧ (s.agent 7).quota = n) := by decide +kernel

/-- An agent without a record, one with a SPENT record alone, and agent 5, with a live arrival elsewhere, which stays live;
an arrival for a retired record becomes stale. -/
theorem witness_Detach :
    Ready 7 bench ∧ (bench.agent 7).state = .detached ∧ Ready 3 bench ∧ (bench.agent 3).state = .attached ∧
    (Supervises 0 (asks bench 16 0 0) ∧ 15 < bitField (asks bench 16 0 0).control.arg0 0 8) ∧
    (bitField (asks bench 15 0 0).control.arg0 0 8 = (15 : AgentId).val ∧ (bench.agent 15).state = .detached) ∧
    (bitField (asks bench 6 0 0).control.arg0 0 8 = (6 : AgentId).val ∧ (bench.agent 6).state = .detaching) ∧
    (bitField (asks bench 3 0 0).control.arg0 0 8 = (3 : AgentId).val ∧ (bench.agent 3).state = .attached) ∧
    (∃ i, ∃ r ∈ bench.record i, r.agent = 5 ∧ r.isSpent = false) ∧
    (∀ i, ∀ r ∈ bench.record i, r.agent = 7 → r.isSpent = true) ∧
    (let s := put bench 10 1 9 .shared (.spent (.lease 1) .revoked);
      (∀ i, ∀ r ∈ s.record i, r.agent = 9 → r.isSpent = true) ∧ ∃ i, s.owner i = some 9) ∧
    (⟨2, false⟩ ∈ bench.timer.inFlight ∧ bench.record 2 ≠ none ∧ ⟨2, false⟩ ∈ (bench.beginWalk 5).timer.inFlight) ∧
    (let s := bench.setTimer { bench.timer with inFlight := [⟨2, false⟩, ⟨5, false⟩] };
      (s.beginWalk 5).timer.inFlight = [⟨2, false⟩, ⟨5, true⟩]) := by decide +kernel

/-- `bench` after the withdrawal step of agent 6, and after its last step. -/
def benchHolds : State := unit (bench.setSlot 7 ⟨8, none⟩) 2 fun x => { x with queue := [] }

theorem witness_WalkStepsAndEnd :
    bench.inReset = false ∧ (bench.agent 3).state ≠ .detaching ∧ (bench.agent 6).state = .detaching ∧
    (∃ r ∈ bench.record 7, r.agent = 6 ∧ r.isWaiting = true) ∧
      (∀ j, j < 7 → ∀ q ∈ bench.record j, q.agent = 6 → q.isWaiting = false) ∧
    (∀ i, ∀ r ∈ benchHolds.record i, r.agent = 6 → r.isWaiting = false) ∧
      (∃ r ∈ benchHolds.record 8, SoleHold benchHolds 6 4 8 r) ∧
      (∀ j, benchHolds.owner j = some 6 → ∀ v ∈ benchHolds.holding j, 4 ≤ v) ∧
    (let s := benchHolds.setSlot 8 ⟨9, none⟩;
      (∀ i, ∀ r ∈ s.record i, r.agent = 6 → r.holding = none) ∧ (s.agent 6).state = .detaching ∧ s.recordCount 6 = 0) ∧
    0 < bench.recordCount 6 := by decide +kernel

theorem witness_WalkProgress :
    SessionLaw bench ∧ bench.inReset = false ∧ (bench.agent 6).state = .detaching :=
  ⟨bench_sessions, by decide +kernel⟩

theorem witness_HoldAndResume :
    Supervises 0 (asks bench 16 0 0) ∧ 15 < bitField (asks bench 16 0 0).control.arg0 0 8 ∧
    (∀ a : AgentId, bitField (asks bench (BitVec.ofNat 32 a.val) 0 0).control.arg0 0 8 = a.val) ∧
    (bench.agent 15).state = .detached ∧ (bench.agent 6).state = .detaching ∧ (bench.agent 4).state = .attached ∧
    (bench.agent 4).held = false ∧
    (let s := bench.setAgent 4 { bench.agent 4 with held := true };
      Supervises 0 s ∧ (s.agent 4).state = .attached ∧ (s.agent 4).held = true) := by decide +kernel

theorem witness_SetQuota :
    (Supervises 0 frozenBench ∧ frozenBench.frozen = true) ∧
    (Supervises 0 bench ∧ bench.frozen = false ∧ 15 < bitField (asks bench 16 8 0).control.arg0 0 8) ∧
    bitField (asks bench 3 9 0).control.arg0 0 8 = (3 : AgentId).val ∧ bitField (asks bench 3 9 0).control.arg1 0 8 = 9 ∧
    bitField (asks bench 3 8 0).control.arg1 0 8 = 8 ∧ bench.recordCount 3 ≤ 8 ∧
    (1 < bench.recordCount 3 ∧ bench.recordCount 3 ≤ 2) := by decide +kernel

/-- The numbers at both ends of every field's range, the first number outside it on each side, and a pool whose last
member would leave while its queue holds a wait. -/
theorem witness_Configuring_units :
    (Supervises 0 frozenBench ∧ frozenBench.frozen = true ∧ Supervises 0 bench ∧ bench.frozen = false) ∧
    63 < bitField (asks bench 64 0 0).control.arg0 0 8 ∧ bitField (asks bench 63 0 0).control.arg0 0 8 = (63 : UnitId).val ∧
    (∀ x ∈ [(0x00000018, 0), (0x0000001E, 0), (0x0000000F, 0), (0x0000005F, 0), (0x0000021F, 0), (0x0000081F, 0),
        (0x0100001F, 0), (0x0000001F, 0x1000)],
      (asks bench 63 (BitVec.ofNat 32 x.1) (BitVec.ofNat 32 x.2)).control.unitConfigOutOfRange) ∧
    UnitConfig.SpelledIn
      { pool := some 7, capacity := 4, order := .ring, rotate := true, limit := some 4095, grace := 255 }
      (asks bench 63 0x00FF0547 4095).control ∧
    UnitConfig.SpelledIn { pool := none, capacity := 1, order := .arrival, rotate := false, limit := none, grace := 0 }
      (asks bench 63 0x0000001F 0).control ∧
    UnitConfig.SpelledIn { pool := none, capacity := 1, order := .arrival, rotate := false, limit := some 1, grace := 0 }
      (asks bench 63 0x0000001F 1).control ∧
    (bench.unit 0).state ≠ .offline ∧ (bench.unit 63).state = .offline := by decide +kernel

theorem witness_Configuring_units_and_their_pools :
    (let s := put (unit bench 63 fun x => { x with config := { x.config with pool := some 7 } }) 10 1 3 .exclusive
        (.waiting (.pool 7) 0 none);
      (s.unit 63).config.pool = some 7 ∧ (∀ v, (s.unit v).config.pool = some 7 → v = 63) ∧ (s.pool 7).queue ≠ []) ∧
    (let s := unit bench 63 fun x => { x with config := { x.config with pool := some 2 } };
      (s.unit 63).state = .offline ∧ (s.pool 2).queue ≠ [] ∧
        ∀ p, (s.unit 63).config.pool = some p → ∃ v, (s.unit v).config.pool = some p ∧ v ≠ 63) := by decide +kernel

theorem witness_Configuring_pools :
    Supervises 0 bench ∧
    7 < bitField (asks bench 8 0 0).control.arg0 0 8 ∧ bitField (asks bench 2 0 0).control.arg0 0 8 = (2 : PoolId).val ∧
    1 < bitField (asks bench 2 0x200 0).control.arg1 8 2 ∧ 1 < bitField (asks bench 2 0x800 0).control.arg1 10 2 ∧
    bitField (asks bench 7 0x500 0).control.arg1 8 2 = 1 ∧ bitField (asks bench 7 0x500 0).control.arg1 10 2 = flagNo true ∧
    (bench.pool 2).queue ≠ [] ∧ (bench.pool 7).queue = [] := by decide +kernel

theorem witness_OpenRestoreAndSetBottom :
    Supervises 0 bench ∧ 63 < bitField (asks bench 64 0 0).control.arg0 0 8 ∧
    bitField (asks bench 63 0 0).control.arg0 0 8 = (63 : UnitId).val ∧ (bench.unit 63).state = .offline ∧
    (bench.unit 0).state ≠ .offline ∧ (bench.unit 0).state ≠ .draining ∧ (bench.unit 5).state = .draining ∧
    1 < bitField (asks bench 2 0 0).control.arg0 0 2 ∧ 1 < bitField (asks bench 3 0 0).control.arg0 0 2 ∧
    (bitField (asks bench 0 64 15).control.arg0 0 2 = 0 ∧ 63 < bitField (asks bench 0 64 15).control.arg1 0 8) ∧
    (bitField (asks bench 0 63 16).control.arg1 0 8 = (63 : UnitId).val ∧
      15 < bitField (asks bench 0 63 16).control.arg2 0 8) ∧
    bitField (asks bench 0 63 15).control.arg2 0 8 = (15 : AgentId).val ∧
    (bitField (asks bench 1 8 15).control.arg0 0 2 = 1 ∧ 7 < bitField (asks bench 1 8 15).control.arg1 0 8) ∧
    bitField (asks bench 1 7 15).control.arg1 0 8 = (7 : PoolId).val := by decide +kernel

theorem witness_UnitQueries :
    (Ready 7 bench ∧ bench.isAttached 7 = false) ∧ (Ready 3 bench ∧ bench.isAttached 3 = true) ∧
    63 < bitField ((args bench 3 64 0 0).station 3).arg0 0 8 ∧
      bitField ((args bench 3 63 0 0).station 3).arg0 0 8 = (63 : UnitId).val ∧
    (Supervises 0 bench ∧ 63 < bitField (asks bench 64 0 0).control.arg0 0 8) ∧
    bitField (asks bench 1 4 0).control.arg0 0 8 = (1 : UnitId).val ∧ 3 < bitField (asks bench 1 4 0).control.arg1 0 8 ∧
    (bench.holders 1).length ≤ 2 ∧ (bench.holders 1).length ≤ 3 ∧
    ((bench.holders 1)[1]? = some 2 ∧ ∃ r ∈ bench.record 2, r.agent = 4) ∧
    (∀ i ∈ bench.rank (bench.unit 2).config.order (bench.unit 2).bottom (bench.unit 2).queue, bench.eligible i 2 = false) ∧
    (bench.rank (bench.unit 0).config.order (bench.unit 0).bottom (bench.unit 0).queue = [] ++ 3 :: [] ∧
      bench.eligible 3 0 = true ∧ ∃ r ∈ bench.record 3, r.agent = 4) := by decide +kernel

/-- `bench` with unit 0 in the band, for agents without clearance. -/
def banded : State := { bench with ceiling := 0 }

theorem witness_AcquireEarlyTests :
    (Ready 7 bench ∧ bench.isAttached 7 = false) ∧
    (Ready 3 bench ∧ bench.isAttached 3 = true) ∧
    (1 < bitField ((args bench 3 0x200 0 0).station 3).arg0 8 2 ∧
      4095 < bitField ((args bench 3 0 4096 0).station 3).arg1 0 16 ∧
      4095 < bitField ((args bench 3 0 0 4096).station 3).arg2 0 16) ∧
    (bitField ((args bench 3 0x140 4095 4095).station 3).arg0 8 2 ≤ 1 ∧
      bitField ((args bench 3 0x140 4095 4095).station 3).arg1 0 16 ≤ 4095 ∧
      bitField ((args bench 3 0x140 4095 4095).station 3).arg2 0 16 ≤ 4095 ∧
      63 < bitField ((args bench 3 0x140 4095 4095).station 3).arg0 0 8) ∧
    (Requests (args bench 3 0x13F 4095 4095) 3 63 .exclusive 4095 4095 ∧ (bench.unit 63).state = .offline) ∧
    (Requests (args bench 3 5 0 0) 3 5 .shared 0 0 ∧ (bench.unit 5).state = .draining) ∧
    (Ready 3 banded ∧ Requests (args banded 3 0 0 0) 3 0 .shared 0 0 ∧ (banded.unit 0).state = .opened ∧
      banded.bandPermits 3 0 = false) := by decide +kernel

/-- Every slot is occupied, by an agent that is not agent 3. -/
def fullStore : State :=
  { bench with
    slots := Vector.replicate 96 ⟨1, some ⟨5, .shared, .spent (.lease 3) .expired⟩⟩
    agents := bench.agents.set 5 { bench.agent 5 with quota := 8 } }

theorem witness_AcquireLaterTests :
    -- every unit asked for is OPEN and below the ceiling
    (∀ u : UnitId, u.val ≤ 4 → (bench.unit u).state = .opened ∧ ∀ a, bench.bandPermits a u = true) ∧
    (Ready 3 bench ∧ Requests (args bench 3 0 4095 0) 3 0 .shared 4095 0 ∧ (bench.unit 0).config.capacity = 1) ∧
    (Requests (args bench 3 0x101 0 4095) 3 1 .exclusive 0 4095 ∧ ∃ r ∈ bench.record 1, SoleHold bench 3 1 1 r ∧
      r.mode = .shared) ∧
    (Ready 5 bench ∧ Requests (args bench 5 0x102 0 0) 5 2 .exclusive 0 0 ∧ ∃ r ∈ bench.record 4, SoleHold bench 5 2 4 r ∧
      r.mode = .exclusive ∧ r.standing = .recalled 2 1 1) ∧
    (Ready 4 bench ∧ Requests (args bench 4 1 0 0) 4 1 .shared 0 0 ∧ (bench.unit 1).config.capacity ≠ 1 ∧
      ∃ r ∈ bench.record 2, SoleHold bench 4 1 2 r ∧ r.standing = .held 1 15 (some 1)) ∧
    (∀ d ∈ [1, 14], let s := put bench 2 3 4 .shared (.held 1 d none);
      ∃ r ∈ s.record 2, SoleHold s 4 1 2 r ∧ r.standing = .held 1 d none) ∧
    (Requests (args bench 4 0x100 0 0) 4 0 .exclusive 0 0 ∧ (∀ i, bench.owner i = some 4 → bench.holding i ≠ some 0) ∧
      bench.waitsIn 4 (bench.unit 0).queue = true) ∧
    (let s := bench.setAgent 5 { bench.agent 5 with quota := 3 };
      Requests (args s 5 0x100 0 0) 5 0 .exclusive 0 0 ∧ (∀ i, s.owner i = some 5 → s.holding i ≠ some 0) ∧
        s.waitsIn 5 (s.unit 0).queue = false ∧ (s.agent 5).quota ≤ s.recordCount 5) ∧
    (Ready 3 fullStore ∧ Requests (args fullStore 3 0x103 0 0) 3 3 .exclusive 0 0 ∧
      (∀ i, fullStore.owner i = some 3 → fullStore.holding i ≠ some 3) ∧
      fullStore.waitsIn 3 (fullStore.unit 3).queue = false ∧ fullStore.recordCount 3 < (fullStore.agent 3).quota ∧
      ∀ i, fullStore.record i ≠ none) := by decide +kernel

/-- The state after the pass of a request that agent aid's ACQUIRE creates in slot i. -/
def acquired (s : State) (aid : AgentId) (u : UnitId) (mode : Mode) (d w : Nat) (i : SlotId) : State :=
  (((s.taken aid 0x03).setSlot i
      { serial := (s.slot i).serial + 1
        record := some
          { agent := aid, mode := mode
            standing := .waiting (.unit u) d (if w = 0 ∨ w = 4095 then none else some w) } }).setUnit u
      { s.unit u with queue := (s.unit u).queue ++ [i] }).unitPass (some i) u

/-- Agent 5 asks for the free unit 3 (granted), and for the held unit 0 with each kind of wait limit. -/
theorem witness_AcquireCreates :
    Ready 5 bench ∧ Requests (args bench 5 0x103 4095 0) 5 3 .exclusive 4095 0 ∧ (bench.unit 3).state = .opened ∧
    bench.bandPermits 5 3 = true ∧ bench.bandPermits 5 0 = true ∧
    (∀ j, bench.owner j = some 5 → bench.holding j ≠ some 3 ∧ bench.holding j ≠ some 0) ∧
    bench.waitsIn 5 (bench.unit 3).queue = false ∧ bench.waitsIn 5 (bench.unit 0).queue = false ∧
    bench.recordCount 5 < (bench.agent 5).quota ∧ LowestFree bench 10 ∧
    (∃ r ∈ (acquired bench 5 3 .exclusive 4095 0 10).record 10, r.isWaiting = false) ∧
    (∀ w ∈ [0, 1, 4094, 4095], Requests (args bench 5 0x100 0 (BitVec.ofNat 32 w)) 5 0 .exclusive 0 w ∧
      ∃ r ∈ (acquired bench 5 0 .exclusive 0 w 10).record 10, r.isWaiting = true) := by decide +kernel

/-- `bench` with a free OPEN member of pool 3 that waits for nobody. -/
def pooled : State := unit bench 3 fun x => { x with config := { x.config with pool := some 3 } }

/-- The state after the pool pass of a request that agent aid's ACQUIRE_ANY creates in slot i. -/
def acquiredAny (s : State) (aid : AgentId) (p : PoolId) (d w : Nat) (i : SlotId) : State :=
  (((s.taken aid 0x04).setSlot i
      { serial := (s.slot i).serial + 1
        record := some
          { agent := aid, mode := .exclusive
            standing := .waiting (.pool p) d (if w = 0 ∨ w = 4095 then none else some w) } }).setPool p
      { s.pool p with queue := (s.pool p).queue ++ [i] }).poolPass (some i) p

theorem witness_AcquireAny :
    (Ready 7 bench ∧ bench.isAttached 7 = false) ∧ (Ready 3 bench ∧ bench.isAttached 3 = true) ∧
    (4095 < bitField ((args bench 3 0 4096 0).station 3).arg1 0 16 ∧
      4095 < bitField ((args bench 3 0 0 4096).station 3).arg2 0 16) ∧
    7 < bitField ((args bench 3 8 0 0).station 3).arg0 0 8 ∧
    (RequestsAny (args bench 3 7 4095 4095) 3 7 4095 4095 ∧ ∀ u, (bench.unit u).config.pool ≠ some 7) ∧
    (Ready 5 bench ∧ RequestsAny (args bench 5 2 0 0) 5 2 0 0 ∧ (∃ u, (bench.unit u).config.pool = some 2) ∧
      bench.waitsIn 5 (bench.pool 2).queue = true) ∧
    bench.waitsIn 3 (bench.pool 2).queue = false ∧
    (let s := bench.setAgent 3 { bench.agent 3 with quota := 2 };
      RequestsAny (args s 3 2 0 0) 3 2 0 0 ∧ (s.agent 3).quota ≤ s.recordCount 3) ∧
    (RequestsAny (args fullStore 3 2 0 0) 3 2 0 0 ∧ (∃ u, (fullStore.unit u).config.pool = some 2) ∧
      fullStore.waitsIn 3 (fullStore.pool 2).queue = false ∧ fullStore.recordCount 3 < (fullStore.agent 3).quota ∧
      ∀ i, fullStore.record i ≠ none) ∧
    (bench.recordCount 3 < (bench.agent 3).quota ∧ LowestFree bench 10 ∧ LowestFree pooled 10) ∧
    (Ready 3 pooled ∧ RequestsAny (args pooled 3 3 1 0) 3 3 1 0 ∧
      ∃ r ∈ (acquiredAny pooled 3 3 1 0 10).record 10, r.isWaiting = false) ∧
    (∀ w ∈ [0, 1, 4094, 4095], RequestsAny (args bench 3 2 0 (BitVec.ofNat 32 w)) 3 2 0 w ∧
      ∃ r ∈ (acquiredAny bench 3 2 0 w 10).record 10, r.isWaiting = true) := by decide +kernel

/-- A slot above 95, a FREE slot, another agent's record, and a wrong serial. -/
theorem witness_HandleCheck :
    (Ready 7 bench ∧ bench.isAttached 7 = false) ∧ (Ready 3 bench ∧ bench.isAttached 3 = true) ∧
    (∀ x ∈ [0x0160, 0x005F, 0x0302, 0x0000, 0x0200], let s := args bench 3 (BitVec.ofNat 32 x) 0 0;
      ∀ i, ∀ r ∈ s.record i, ¬ Names s 3 i r) := by decide +kernel

/-- The handles of `bench`'s records name them to their agents, which are ATTACHED. -/
theorem bench_handles :
    (∀ a ∈ ([3, 4, 5] : List AgentId), Ready a bench ∧ bench.isAttached a = true) ∧
    (∃ r ∈ bench.record 0, Names (args bench 3 0x0100 0 0) 3 0 r ∧ r.standing = .held 0 2 (some 50) ∧ r.mode = .exclusive) ∧
    (∃ r ∈ bench.record 1, Names (args bench 3 0x0201 0 0) 3 1 r ∧ r.standing = .held 1 1 none ∧ r.mode = .shared) ∧
    (∃ r ∈ bench.record 2, Names (args bench 4 0x0302 0 0) 4 2 r ∧ r.standing = .held 1 15 (some 1) ∧ r.mode = .shared) ∧
    (∃ r ∈ bench.record 3, Names (args bench 4 0x0403 0 0) 4 3 r ∧ r.standing = .waiting (.unit 0) 0 (some 7)) ∧
    (∃ r ∈ bench.record 4, Names (args bench 5 0x0504 0 0) 5 4 r ∧ r.standing = .recalled 2 1 1) ∧
    (∃ r ∈ bench.record 5, Names (args bench 5 0x0605 0 0) 5 5 r ∧ r.standing = .spent (.lease 3) .expired) ∧
    (∃ r ∈ bench.record 6, Names (args bench 5 0x0706 0 0) 5 6 r ∧ r.standing = .waiting (.pool 2) 4095 none) ∧
    (∃ r ∈ bench.record 9, Names (args bench 4 0xFF09 0 0) 4 9 r ∧ r.standing = .recalled 5 3 255) := by decide +kernel

/-- With `bench_handles`: FULL at each of its values, depths 1, 2 and 15. -/
theorem witness_Release :
    (∀ x ∈ [2, 3], 1 < bitField ((args bench 3 0x0100 (BitVec.ofNat 32 x) 0).station 3).arg1 0 2) ∧
    (∀ x ∈ [0, 1], bitField ((args bench 3 0x0100 (BitVec.ofNat 32 x) 0).station 3).arg1 0 2 = x) ∧
    ∃ r ∈ bench.record 0, Names (args bench 3 0x0100 1 0) 3 0 r := by decide +kernel

/-- With `bench_handles`: durations 0, 1, 4095 and 4096, on the limited unit 0 and the UNBOUNDED unit 1. -/
theorem witness_Renew :
    (∀ x ∈ [0, 1, 4095, 4096], bitField ((args bench 3 0x0100 (BitVec.ofNat 32 x) 0).station 3).arg1 0 16 = x) ∧
    (bench.unit 0).config.limit = some 200 ∧ (bench.unit 1).config.limit = none ∧
    ∃ r ∈ bench.record 0, Names (args bench 3 0x0100 4095 0) 3 0 r := by decide +kernel

/-- With `bench_handles`: the record beside other holders, without a mark and with each mark, and alone. -/
theorem witness_Upgrade :
    (bench.holders 1 ≠ [1] ∧ (bench.unit 1).mark = none) ∧
    (∃ r ∈ (marked 1).record 1, Names (args (marked 1) 3 0x0201 0 0) 3 1 r ∧ (marked 1).holders 1 ≠ [1] ∧
      ((marked 1).unit 1).mark = some 1) ∧
    (∃ r ∈ (marked 2).record 1, Names (args (marked 2) 3 0x0201 0 0) 3 1 r ∧ (marked 2).holders 1 ≠ [1] ∧
      ((marked 2).unit 1).mark = some 2) ∧
    (let s := bench.setSlot 2 ⟨3, none⟩; ∃ r ∈ s.record 1, Names (args s 3 0x0201 0 0) 3 1 r ∧ s.holders 1 = [1] ∧
      (s.unit 1).mark = none ∧ r.mode = .shared) := by decide +kernel

/-- With `bench_handles`: the EXCLUSIVE record on a unit of each capacity. -/
theorem witness_Downgrade :
    (bench.unit 0).config.capacity = 1 ∧
    ∀ n ∈ [2, 4], let s := unit bench 0 fun x => { x with config := { x.config with capacity := n } };
      (∃ r ∈ s.record 0, Names (args s 3 0x0100 0 0) 3 0 r ∧ r.mode = .exclusive) ∧
        (s.unit 0).config.capacity = n := by decide +kernel

/-- With `bench_handles`: the pending upgrade, and leases that are not one. -/
theorem witness_Cancel :
    (bench.unit 0).mark ≠ some 0 ∧ (bench.unit 2).mark ≠ some 4 ∧
    ∃ r ∈ (marked 2).record 2, Names (args (marked 2) 4 0x0302 0 0) 4 2 r ∧ r.standing = .held 1 15 (some 1) ∧
      ((marked 2).unit 1).mark = some 2 := by decide +kernel

theorem witness_QueryAndInspect :
    (∃ r ∈ bench.record 9, Names (args bench 4 0xFF09 0 0) 4 9 r) ∧
    (Supervises 0 bench ∧ 95 < bitField (asks bench 96 0 0).control.arg0 0 8) ∧
    (bitField (asks bench 95 0 0).control.arg0 0 8 = (95 : SlotId).val ∧ bench.record 95 = none) ∧
    (∃ r ∈ bench.record 6, r.standing = .waiting (.pool 2) 4095 none) ∧
    (∃ r ∈ bench.record 0, r.isWaiting = false) := by decide +kernel

theorem witness_NoticeCommands :
    (Ready 7 bench ∧ bench.isAttached 7 = false) ∧
    (Ready 3 bench ∧ bench.isAttached 3 = true ∧ (bench.notice 3).entries = []) ∧
    (Ready 5 bench ∧ (bench.notice 5).entries = ⟨.expired, ⟨5, 6⟩, .unit 3⟩ :: [] ∧
      bench.handle 5 = ⟨5, 6⟩ ∧ ∃ r ∈ bench.record 5, r.isSpent = true) ∧
    (let s := noted bench 3 .granted 0 (.unit 0); (s.notice 3).entries = ⟨.granted, ⟨0, 1⟩, .unit 0⟩ :: [] ∧
      s.handle 0 = ⟨0, 1⟩ ∧ ∃ r ∈ s.record 0, r.isSpent = false) ∧
    (∀ x ∈ [2, 3], 1 < bitField ((args bench 3 (BitVec.ofNat 32 x) 0 0).station 3).arg0 0 2) ∧
    bitField ((args bench 3 0 0 0).station 3).arg0 0 2 = flagNo false ∧
    bitField ((args bench 3 1 0 0).station 3).arg0 0 2 = flagNo true := by decide +kernel

theorem witness_GrantAndPost :
    (∃ r ∈ bench.record 3, r.standing = .waiting (.unit 0) 0 (some 7)) ∧
    (∃ r ∈ bench.record 6, r.standing = .waiting (.pool 2) 4095 none) ∧
    some (3 : SlotId) = some 3 ∧ (none : Option SlotId) ≠ some 3 ∧
    (∃ r ∈ bench.record 8, bench.isAttached r.agent = false) ∧
    (∃ r ∈ bench.record 0, bench.isAttached r.agent = true ∧ bench.hasEntry r.agent 0 = false) ∧
    (∃ r ∈ bench.record 5, bench.isAttached r.agent = true ∧
      (bench.notice r.agent).entries = [] ++ ⟨.expired, bench.handle 5, .unit 3⟩ :: []) := by decide +kernel

theorem witness_SetBand :
    (Supervises 0 frozenBench ∧ frozenBench.frozen = true) ∧ (Supervises 0 bench ∧ bench.frozen = false) ∧
    (∀ c ∈ [0, 4, 5, 63, 64, 65, 255], bitField (asks bench (BitVec.ofNat 32 c) 0 0).control.arg0 0 8 = c) ∧
    5 = bench.ceiling ∧ bench.ceiling < 6 ∧ bench.ceiling < 64 ∧ 4 < bench.ceiling ∧
    (4 ≤ (4 : UnitId).val ∧ (4 : UnitId).val < bench.ceiling ∧ bench.clearance 6 = false ∧ Occupies bench 6 4 ∧
      ∀ v : UnitId, 4 ≤ v.val → v < 4 → ∀ b, bench.clearance b = false → ¬ Occupies bench b v) := by decide +kernel

/-- The ceiling lowered from 64 to 63, over a unit that nobody occupies. -/
theorem witness_SetBand_free :
    QueueLaw bench ∧ QueueLaw { bench with ceiling := 64 } ∧
    Supervises 0 ({ bench with ceiling := 64 } : State) ∧
    ∀ u : UnitId, 63 ≤ u.val → u.val < 64 → ∀ a, State.clearance { bench with ceiling := 64 } a = false →
      ¬ Occupies { bench with ceiling := 64 } a u :=
  ⟨bench_queues, queueLaw_congr bench_queues rfl rfl rfl, by decide +kernel⟩

theorem witness_SetClearance :
    (Supervises 0 frozenBench ∧ frozenBench.frozen = true) ∧ (Supervises 0 bench ∧ bench.frozen = false) ∧
    15 < bitField (asks bench 16 0 0).control.arg0 0 8 ∧
    (∀ a : AgentId, bitField (asks bench (BitVec.ofNat 32 a.val) 0 0).control.arg0 0 8 = a.val) ∧
    (∀ x ∈ [0, 1, 2, 3], bitField (asks bench 3 (BitVec.ofNat 32 x) 0).control.arg1 0 2 = x) ∧
    (0 : AgentId) = bench.supervisor ∧ bench.clearance 4 = true ∧ bench.clearance 3 = false ∧
    (3 : AgentId) ≠ bench.supervisor ∧ (4 : AgentId) ≠ bench.supervisor ∧
    (bench.ceiling ≤ (5 : UnitId).val ∧ Occupies bench 4 5 ∧
      ∀ v : UnitId, bench.ceiling ≤ v.val → v < 5 → ¬ Occupies bench 4 v) := by decide +kernel

/-- Agent 3 with clearance, which occupies no unit in the band. -/
theorem witness_SetClearance_free :
    QueueLaw bench ∧ QueueLaw (bench.setAgent 3 { bench.agent 3 with clearance := true }) ∧
    let s := bench.setAgent 3 { bench.agent 3 with clearance := true }
    s.clearance 3 = true ∧ ∀ u : UnitId, s.ceiling ≤ u.val → ¬ Occupies s 3 u :=
  ⟨bench_queues, queueLaw_congr bench_queues rfl rfl rfl, by decide +kernel⟩

theorem witness_Recall :
    (∃ r ∈ bench.record 1, r.standing = .held 1 1 none ∧ (bench.unit 1).config.grace = 0) ∧
    (∃ r ∈ bench.record 0, r.standing = .held 0 2 (some 50) ∧ 0 < (bench.unit 0).config.grace ∧
      (bench.unit 0).mark ≠ some 0) ∧
    (∀ n ∈ [1, 255], let s := unit (marked 2) 1 fun x => { x with config := { x.config with grace := n } };
      ∃ r ∈ s.record 2, r.standing = .held 1 15 (some 1) ∧ 0 < (s.unit 1).config.grace ∧ (s.unit 1).mark = some 2) ∧
    (∃ r ∈ bench.record 4, r.standing = .recalled 2 1 1) ∧
    (Supervises 0 bench ∧ 95 < bitField (asks bench 96 0 0).control.arg0 0 8) ∧
    (bitField (asks bench 95 0 0).control.arg0 0 8 = (95 : SlotId).val ∧ bench.record 95 = none) ∧
    (∃ r ∈ bench.record 3, r.isWaiting = true) ∧ (∃ r ∈ bench.record 5, r.isSpent = true) ∧
    63 < bitField (asks bench 64 0 0).control.arg0 0 8 ∧
    bitField (asks bench 63 0 0).control.arg0 0 8 = (63 : UnitId).val := by decide +kernel

/-- A record that is not HELD, for the clause of the recall that leaves it. -/
theorem witness_Recall_left : ∃ r, bench.record 4 = some r ∧ ∀ u depth c, r.standing ≠ .held u depth c := by
  refine ⟨⟨5, .exclusive, .recalled 2 1 1⟩, by decide +kernel, nofun⟩

theorem witness_Drain :
    QueueLaw bench ∧ Supervises 0 bench ∧ 63 < bitField (asks bench 64 0 0).control.arg0 0 8 ∧
    bitField (asks bench 63 0 0).control.arg0 0 8 = (63 : UnitId).val ∧ (bench.unit 63).state ≠ .opened ∧
    (bench.unit 5).state ≠ .opened ∧ (bench.unit 0).state = .opened ∧ (bench.unit 0).queue ≠ [] ∧
    bench.inReset = false ∧ (bench.unit 5).state = .draining ∧ bench.holders 5 ≠ [] ∧
    (bench.setSlot 9 ⟨255, none⟩).holders 5 = [] :=
  ⟨bench_queues, by decide +kernel⟩

theorem witness_CompletionSets :
    Supervises 0 bench ∧
    (∀ x ∈ [0, 1, 2, 255], bitField (asks bench (BitVec.ofNat 32 x) 0 0).control.arg0 0 8 = x) ∧
    (∀ x ∈ [2, 3], 1 < bitField (asks bench (BitVec.ofNat 32 x) 0 0).control.arg0 0 2) ∧
    bitField (asks bench 0 0 0).control.arg0 0 2 = flagNo false ∧
    bitField (asks bench 1 0 0).control.arg0 0 2 = flagNo true ∧
    ((31 : UnitId).val / 32 = 0 ∧ (32 : UnitId).val / 32 = 1) := by decide +kernel

theorem witness_Freeze :
    Supervises 0 frozenBench ∧ frozenBench.frozen = true ∧ (∀ x, Instr.hardwareReset ≠ .powerOn x) ∧
      ∃ t, exec .hardwareReset frozenBench = .next t :=
  ⟨by decide +kernel, by decide +kernel, by decide, (exec_steps .hardwareReset frozenBench).imp fun _ h => h.1⟩

theorem witness_TickSetupAndTicks :
    (Supervises 0 frozenBench ∧ frozenBench.frozen = true) ∧ (Supervises 0 bench ∧ bench.frozen = false) ∧
    2 < bitField (asks bench 3 16 0).control.arg0 0 2 ∧ (asks bench 0 15 0).control.arg1.toNat < 16 ∧
    65536 < (asks bench 0 65537 0).control.arg1.toNat ∧
    (∀ n ∈ [16, 65536], (asks bench 0 (BitVec.ofNat 32 n) 0).control.arg1.toNat = n) ∧
    (∀ x ∈ [TickSource.off, .pin, .internal], bitField (asks bench (BitVec.ofNat 32 x.no) 16 0).control.arg0 0 2 = x.no) ∧
    (bench.inReset = false ∧ bench.timer.source = .internal ∧ bench.timer.divider ≤ bench.timer.count + 1) ∧
    (∀ n ∈ [0, 14], (bench.setTimer { bench.timer with count := n }).timer.count + 1 < bench.timer.divider) ∧
    (State.reset.inReset = false ∧ State.reset.timer.source = .off) ∧
    (∀ x ∈ [none, some false, some true],
      (bench.setTimer { bench.timer with source := .pin, count := 0, reference := x }).timer.reference = x) := by
  decide +kernel

/-- The arrivals in flight of `bench`: none at slot 9, a stale one at slot 0, live ones at slots 2 and 3. -/
theorem witness_TickArrivals :
    bench.inReset = false ∧ (∀ a ∈ bench.timer.inFlight, a.slot ≠ 9) ∧
    (bench.timer.inFlight = [⟨2, false⟩, ⟨3, false⟩] ++ ⟨0, true⟩ :: [] ∧
      ∀ b ∈ ([⟨2, false⟩, ⟨3, false⟩] : List Arrival), b.slot ≠ 0) ∧
    (bench.timer.inFlight = [⟨2, false⟩] ++ ⟨3, false⟩ :: [⟨0, true⟩] ∧
      (∀ b ∈ ([⟨2, false⟩] : List Arrival), b.slot ≠ 3) ∧ ∃ r ∈ bench.record 3, r.standing = .waiting (.unit 0) 0 (some 7)) ∧
    (bench.timer.inFlight = [] ++ ⟨2, false⟩ :: [⟨3, false⟩, ⟨0, true⟩] ∧
      ∃ r ∈ bench.record 2, r.standing = .held 1 15 (some 1)) ∧
    (∃ r ∈ bench.record 0, r.standing = .held 0 2 (some 50)) ∧ (∃ r ∈ bench.record 4, r.standing = .recalled 2 1 1) ∧
    (∃ r ∈ bench.record 9, r.standing = .recalled 5 3 255) := by decide +kernel

/-- Live arrivals at which no expiry is due: a countdown of 2 or more in each state, another state, an empty slot. -/
theorem witness_TickArrivals_not_due :
    (∃ r ∈ bench.record 0, r.standing = .held 0 2 (some 50)) ∧ (∃ r ∈ bench.record 3, r.standing = .waiting (.unit 0) 0 (some 7)) ∧
    (∃ r ∈ bench.record 9, r.standing = .recalled 5 3 255) ∧ bench.record 10 = none ∧
    (let s := bench.setTimer { bench.timer with inFlight := [⟨3, false⟩, ⟨9, false⟩] };
      after (exec (.waitTimeout 3) s) = s ∧ after (exec (.leaseExpiry 3) s) = s ∧ after (exec (.graceExpiry 9) s) = s) ∧
    (let s := (put bench 2 3 4 .shared (.held 1 15 (some 2))).setTimer { bench.timer with inFlight := [⟨2, false⟩] };
      after (exec (.leaseExpiry 2) s) = s) := by decide +kernel

/-- A record of each state is retired; the SPENT one is in slot 5. A DETACHING agent's last record ends its walk, and one
of several does not. -/
theorem witness_Retirement :
    (∀ i ∈ ([0, 3, 4, 5, 6, 7, 8] : List SlotId), ∃ r ∈ bench.record i, i = 5 → r.isSpent = true) ∧
    ((bench.agent 6).state = .detaching ∧ 1 < bench.recordCount 6 ∧ (bench.agent 3).state ≠ .detaching) ∧
    (benchHolds.recordCount 6 = 1 ∧ (∃ r ∈ benchHolds.record 8, r.agent = 6) ∧
      ((benchHolds.retire 8).agent 6).state = .detached ∧ (benchHolds.retire 8).detached.get 6 = true ∧
      (benchHolds.retire 8).readWord 6 6 = 0) := by decide +kernel

/-- The departure of a DRAINING unit's last holder completes its drain, one of two does not; the departure of a marked
record clears the mark. -/
theorem witness_Retirement_of_holders :
    ((∃ r ∈ bench.record 9, r.holding = some 5) ∧ (bench.unit 5).state = .draining ∧
      (∀ j, j ≠ 9 → bench.holding j ≠ some 5) ∧ ((bench.retire 9).unit 5).state = .offline ∧
      (bench.retire 9).drained.get 5 = true) ∧
    (let s := put bench 10 1 4 .shared (.recalled 5 1 9);
      s.holding 10 = some 5 ∧ ((s.retire 9).unit 5).state = .draining ∧ (s.retire 9).drained.get 5 = false) ∧
    ((∃ r ∈ (marked 2).record 2, r.holding = some 1) ∧ ((marked 2).unit 1).mark = some 2 ∧
      (((marked 2).retire 2).unit 1).mark = none) := by decide +kernel

theorem witness_Spending :
    (∃ r ∈ bench.record 7, r.isSpent = false ∧ bench.isAttached r.agent = false) ∧
    (∀ i ∈ ([0, 3, 4, 6] : List SlotId), ∃ r ∈ bench.record i, r.isSpent = false ∧ bench.isAttached r.agent = true) ∧
    ((∃ r ∈ bench.record 9, r.holding = some 5 ∧ bench.isAttached r.agent = true) ∧ (bench.unit 5).state = .draining ∧
      ((bench.spend 9 .revoked).unit 5).state = .offline ∧ (bench.spend 9 .revoked).drained.get 5 = true) ∧
    ((∃ r ∈ (marked 2).record 2, r.holding = some 1 ∧ (marked 2).isAttached r.agent = true) ∧
      (((marked 2).spend 2 .expired).unit 1).mark = none) := by decide +kernel

/-- The ring of four waiters of section 4.10, with unit 12 just free. -/
def ringFree : State := ring12.setSlot 0 ⟨1, none⟩

theorem ringFree_queues : QueueLaw ringFree :=
  queueLaw_of_checks (by decide +kernel) (by decide +kernel) (by decide +kernel)

theorem witness_EligibilityAndRank : QueueOf ringFree (.unit 12) (ringFree.unit 12).queue ∧
    (ringFree.unit 12).queue = [1, 2, 3, 4] :=
  ⟨ringFree_queues.1 12, by decide +kernel⟩

theorem witness_PassStageA :
    (bench.unit 5).state ≠ .opened ∧ (bench.unit 63).state ≠ .opened ∧
    (((marked 2).unit 1).state = .opened ∧ ((marked 2).unit 1).mark = some 2 ∧ (marked 2).holders 1 ≠ [2]) ∧
    (let s := (marked 2).setSlot 1 ⟨2, none⟩; (s.unit 1).mark = some 2 ∧ s.holders 1 = [2] ∧ s.record 2 ≠ none) ∧
    ((bench.unit 1).state = .opened ∧ (bench.unit 1).mark = none ∧ (bench.stageB none 1).holders 1 ≠ []) ∧
    (bench.stageB none 3).holders 3 = [] := by decide +kernel

/-- Unit 2's waiter is ineligible, unit 0's is eligible and not compatible, and those of the free ring are granted. -/
theorem witness_PassStageB :
    (∀ j ∈ ([7] : List SlotId), bench.eligible j 2 = false) ∧
    (bench.eligible 3 0 = true ∧ ∃ r ∈ bench.record 3, bench.compatible r.mode 0 = false) ∧
    (ringFree.eligible 2 12 = true ∧ ∃ r ∈ ringFree.record 2, ringFree.compatible r.mode 12 = true) ∧
    (stageBWalk none 12 (ringFree.rank (ringFree.unit 12).config.order (ringFree.unit 12).bottom
        (ringFree.unit 12).queue) ringFree none).2 = some 5 ∧
    ((ringFree.unit 12).config.order = .ring ∧ (ringFree.unit 12).config.rotate = true) ∧
    (bench.unit 0).config.order = .arrival ∧
    (stageBWalk none 0 (bench.rank (bench.unit 0).config.order (bench.unit 0).bottom (bench.unit 0).queue)
        bench none).2 = none := by decide +kernel

theorem witness_NoOvertaking :
    QueueLaw ringFree ∧
    ringFree.rank (ringFree.unit 12).config.order (ringFree.unit 12).bottom (ringFree.unit 12).queue =
      [] ++ 2 :: [] ++ 4 :: [1, 3] ∧
    (ringFree.unitPass none 12).holding 4 = some 12 ∧ ringFree.eligible 2 12 = true :=
  ⟨ringFree_queues, by decide +kernel⟩

/-- A granted waiter of the unit's queue with nobody ahead, and one of its pool's. -/
theorem witness_NoOvertaking_of_a_first_waiter :
    (∃ r ∈ ringFree.record 2, r.isWaiting = true ∧ (ringFree.unitPass none 12).holding 2 = some 12) ∧
    ∃ r ∈ (band50.setSlot 22 ⟨1, none⟩).record 21, r.isWaiting = true ∧
      ((band50.setSlot 22 ⟨1, none⟩).unitPass none 51).holding 21 = some 51 := by decide +kernel

/-- Pool 3 of section 4.12, with unit 51 just free: in ARRIVAL order, and in RING order with rotation. -/
def poolFree : State := band50.setSlot 22 ⟨1, none⟩

theorem witness_PassStageC :
    (bench.unit 1).config.pool = none ∧
    ((unit bench 4 fun x => { x with config := { x.config with pool := some 7 } }).unit 4).config.pool = some 7 ∧
      bench.rank (bench.pool 7).order (bench.pool 7).bottom (bench.pool 7).queue = [] ∧
    ((poolFree.unit 51).config.pool = some 3 ∧ (poolFree.unit 51).state = .opened ∧ poolFree.holders 51 = [] ∧
      poolFree.rank (poolFree.pool 3).order (poolFree.pool 3).bottom (poolFree.pool 3).queue = [20] ++ 21 :: [] ∧
      (∀ j ∈ ([20] : List SlotId), poolFree.eligible j 51 = false) ∧ poolFree.eligible 21 51 = true ∧
      (∃ r ∈ poolFree.record 21, r.agent = 10) ∧ (poolFree.pool 3).order = .arrival) ∧
    (let s := poolFree.setPool 3 { poolFree.pool 3 with order := .ring, rotate := true };
      s.rank (s.pool 3).order (s.pool 3).bottom (s.pool 3).queue = [20] ++ 21 :: [] ∧ s.eligible 20 51 = false ∧
        s.eligible 21 51 = true ∧ (s.pool 3).order = .ring ∧ (s.pool 3).rotate = true) ∧
    poolFree.holders 50 ≠ [] := by decide +kernel

theorem witness_PassFrame :
    QueueLaw bench ∧ (bench.unit 0).config.pool ≠ some 3 ∧ Target.unit 0 = .unit 0 ∧ Target.pool 2 = .pool 2 ∧
    (∃ r, bench.record 3 = some r) ∧ QueueLaw ringFree ∧ (∃ r ∈ ringFree.record 2, ringFree.eligible 2 12 = true) :=
  ⟨bench_queues, by decide +kernel, rfl, rfl, ⟨⟨4, .exclusive, .waiting (.unit 0) 0 (some 7)⟩, by decide +kernel⟩,
    ringFree_queues, by decide +kernel⟩

/-- `bench` with one command waiting. -/
def waiting (c : Instr) : State := { bench with pending := [c] }

/-- A state with one command waiting has a step. -/
theorem waiting_steps (c : Instr) : ∃ t, step (waiting c) = .next t :=
  (exec_steps c { bench with pending := [] }).imp fun _ h => h.1

theorem witness_DepthKept : DepthLaw (waiting (.release 4)) ∧ ∃ t, step (waiting (.release 4)) = .next t :=
  ⟨bench_depth, waiting_steps _⟩

/-- A pending upgrade stands before and after a request for the unit. -/
theorem witness_PendingUpgradeKept :
    let s : State := { args (marked 2) 5 0x001 0 4095 with pending := [.acquire 5] }
    MarkLaw s ∧ (s.unit 1).mark ≠ none ∧ ((after (step s)).unit 1).mark ≠ none ∧ ((after (step s)).unit 1).queue = [10] :=
  ⟨marked_mark, by decide +kernel⟩

theorem witness_WaitQueuesKept : QueueLaw (waiting (.release 3)) ∧ ∃ t, step (waiting (.release 3)) = .next t :=
  ⟨queueLaw_congr bench_queues rfl rfl rfl, waiting_steps _⟩

theorem witness_NoticeQueuesKept : NoticeLaw (waiting (.nextNotice 5)) ∧ QuotaLaw (waiting (.nextNotice 5)) ∧
    ∃ t, step (waiting (.nextNotice 5)) = .next t :=
  ⟨bench_notices, bench_quotas, waiting_steps _⟩

theorem witness_HoldersAndServiceKept : HolderLaw (waiting (.drainUnit 0)) ∧ ServiceLaw (waiting (.drainUnit 0)) ∧
    QueueLaw (waiting (.drainUnit 0)) ∧ ∃ t, step (waiting (.drainUnit 0)) = .next t :=
  ⟨bench_holders, bench_service, queueLaw_congr bench_queues rfl rfl rfl, waiting_steps _⟩

theorem witness_SessionsAndQuotasKept : SessionLaw (waiting (.withdrawalStep 6)) ∧ QuotaLaw (waiting (.withdrawalStep 6)) ∧
    ∃ t, step (waiting (.withdrawalStep 6)) = .next t :=
  ⟨bench_sessions, bench_quotas, waiting_steps _⟩

theorem witness_BandKept : BandLaw (waiting (.setBand 0)) ∧ QueueLaw (waiting (.setBand 0)) ∧
    ∃ t, step (waiting (.setBand 0)) = .next t :=
  ⟨bench_band, queueLaw_congr bench_queues rfl rfl rfl, waiting_steps _⟩

theorem witness_RangesKept : RangeLaw (waiting (.tickArrival 2)) ∧ CountdownLaw (waiting (.tickArrival 2)) ∧
    TimerLaw (waiting (.tickArrival 2)) ∧ ArrivalLaw (waiting (.tickArrival 2)) ∧ KindLaw (waiting (.tickArrival 2)) ∧
    ∃ t, step (waiting (.tickArrival 2)) = .next t :=
  ⟨bench_ranges, bench_countdowns, bench_timer, bench_arrivals, bench_kinds, waiting_steps _⟩

theorem witness_OneHoldKept : OneHoldLaw (waiting (.tickArrival 2)) ∧ ServedLaw (waiting (.tickArrival 2)) ∧
    QueueLaw (waiting (.tickArrival 2)) ∧ MarkLaw (waiting (.tickArrival 2)) ∧ BandLaw (waiting (.tickArrival 2)) ∧
    ServiceLaw (waiting (.tickArrival 2)) ∧ SessionLaw (waiting (.tickArrival 2)) ∧
    ∃ t, step (waiting (.tickArrival 2)) = .next t :=
  ⟨bench_oneHold, bench_served, queueLaw_congr bench_queues rfl rfl rfl, bench_mark, bench_band, bench_service,
    bench_sessions, waiting_steps _⟩

/-- An allocation, and a record that stands before and after. -/
theorem witness_SerialsCountAllocations :
    (∀ x, Instr.acquire 5 ≠ .powerOn x) ∧
    (∃ t, exec (.acquire 5) (args bench 5 0x103 0 0) = .next t) ∧
    (let t := after (exec (.acquire 5) (args bench 5 0x103 0 0));
      bench.record 10 = none ∧ t.record 10 ≠ none ∧ bench.record 0 ≠ none ∧ t.record 0 ≠ none) :=
  ⟨by decide, (exec_steps _ _).imp fun _ h => h.1, by decide +kernel⟩

end Sys2Proof.Tests
end

section
/-! SUPPORT. The unit table (spec/01_the_unit_table.md) and PROBE (R88): what the numbers of an argument word name, when a
change of a unit's pool is IN_USE, what the reading commands answer, and the statements on CONFIGURE_UNIT, CONFIGURE_POOL,
QUERY_UNIT, LIST_HOLDER and PROBE. -/

namespace Sys2Proof.Machine

/-! ### What a number names, and which numbers name nothing (R174, Table 10-3) -/

theorem unitOf_of_eq_val {n : Nat} {u : UnitId} (h : n = u.val) : unitOf n = some u := by
  simp [unitOf, h]

theorem unitOf_eq_none {n : Nat} (h : 63 < n) : unitOf n = none := dif_neg (by omega)

theorem poolOf_of_eq_val {n : Nat} {p : PoolId} (h : n = p.val) : poolOf n = some p := by
  simp [poolOf, h]

theorem poolOf_eq_none {n : Nat} (h : 7 < n) : poolOf n = none := dif_neg (by omega)

theorem orderOf_of_eq_no {n : Nat} {o : OrderMode} (h : n = if o = .ring then 1 else 0) : orderOf n = some o := by
  subst h; cases o <;> rfl

theorem orderOf_eq_none {n : Nat} (h : 1 < n) : orderOf n = none := by
  obtain ⟨k, rfl⟩ := Nat.exists_eq_add_of_le' h
  rfl

theorem flagOf_of_eq_no {n : Nat} {b : Bool} (h : n = flagNo b) : flagOf n = some b := by
  subst h; cases b <;> rfl

theorem flagOf_eq_none {n : Nat} (h : 1 < n) : flagOf n = none := by
  obtain ⟨k, rfl⟩ := Nat.exists_eq_add_of_le' h
  rfl

theorem poolFieldOf_of_spelled {n : Nat} {pool : Option PoolId} (h : n = (pool.map Fin.val).getD 15) :
    poolFieldOf n = some pool := by
  cases pool with
  | none => exact if_pos h
  | some p =>
    have hn : n = p.val := h
    have hne : n ≠ 15 := by omega
    rw [poolFieldOf, if_neg hne, poolOf_of_eq_val hn, Option.map_some]

theorem poolFieldOf_eq_none {n : Nat} (high : 7 < n) (named : n ≠ 15) : poolFieldOf n = none := by
  rw [poolFieldOf, if_neg named, poolOf_eq_none high, Option.map_none]

theorem capacityOf_eq_none {n : Nat} (h : n = 0 ∨ 4 < n) : capacityOf n = none := if_neg (by omega)

theorem graceOf_eq_none {n : Nat} (h : 255 < n) : graceOf n = none := if_neg (by omega)

theorem limitOf_of_spelled {n : Nat} {limit : Option Nat} (h : n = limit.getD 0)
    (range : ∀ l ∈ limit, 1 ≤ l ∧ l ≤ 4095) : limitOf n = some limit := by
  cases limit with
  | none => exact if_pos h
  | some l =>
    have hn : n = l := h
    obtain ⟨low, high⟩ := range l rfl
    rw [limitOf, if_neg (by omega), if_pos (by omega), hn]

theorem limitOf_eq_none {n : Nat} (h : 4095 < n) : limitOf n = none := by
  rw [limitOf, if_neg (by omega), if_neg (by omega)]

/-! ### The arguments of CONFIGURE_UNIT and CONFIGURE_POOL (R11, R16, Table 10-2) -/

theorem unitConfigOf_of_spelled {st : Station} {c : UnitConfig} (h : c.SpelledIn st) : unitConfigOf st = some c := by
  obtain ⟨pool, capacity, low, high, order, rotate, grace, short, limit, range⟩ := h
  have hcapacity : capacityOf c.capacity = some c.capacity := if_pos ⟨low, high⟩
  have hgrace : graceOf c.grace = some c.grace := if_pos short
  simp [unitConfigOf, poolFieldOf_of_spelled pool, capacity, hcapacity, orderOf_of_eq_no order, flagOf_of_eq_no rotate,
    grace, hgrace, limitOf_of_spelled limit range]

theorem unitConfigOf_outOfRange {st : Station} (h : st.unitConfigOutOfRange) : unitConfigOf st = none := by
  rcases h with ⟨high, named⟩ | h | h | h | h | h | h
  · simp [unitConfigOf, poolFieldOf_eq_none high named]
  · simp [unitConfigOf, capacityOf_eq_none (.inl h)]
  · simp [unitConfigOf, capacityOf_eq_none (.inr h)]
  · simp [unitConfigOf, orderOf_eq_none h]
  · simp [unitConfigOf, flagOf_eq_none h]
  · simp [unitConfigOf, graceOf_eq_none h]
  · simp [unitConfigOf, limitOf_eq_none h]

theorem poolOrderOf_of_spelled {st : Station} {o : OrderMode} {b : Bool}
    (order : bitField st.arg1 8 2 = if o = .ring then 1 else 0) (rotate : bitField st.arg1 10 2 = flagNo b) :
    poolOrderOf st = some (o, b) := by
  simp [poolOrderOf, orderOf_of_eq_no order, flagOf_of_eq_no rotate]

theorem poolOrderOf_outOfRange {st : Station} (h : 1 < bitField st.arg1 8 2 ∨ 1 < bitField st.arg1 10 2) :
    poolOrderOf st = none := by
  rcases h with h | h
  · simp [poolOrderOf, orderOf_eq_none h]
  · simp [poolOrderOf, flagOf_eq_none h]

/-! ### Taking the last member out of a pool (R11, R15) -/

theorem State.mem_members (s : State) (p : PoolId) (v : UnitId) :
    v ∈ s.members p ↔ (s.unit v).config.pool = some p := by
  simp [State.members, allUnits]

theorem State.members_nodup (s : State) (p : PoolId) : (s.members p).Nodup :=
  (List.nodup_finRange 64).filter _

/-- A member is the only one exactly when no other unit names the pool. -/
theorem State.members_eq_singleton_iff {s : State} {u : UnitId} {p : PoolId} (member : (s.unit u).config.pool = some p) :
    s.members p = [u] ↔ ∀ v, (s.unit v).config.pool = some p → v = u := by
  rw [← List.perm_singleton, List.perm_ext_iff_of_nodup (s.members_nodup p) (List.nodup_singleton u)]
  simp only [State.mem_members, List.mem_singleton]
  exact ⟨fun h v => (h v).mp, fun h v => ⟨h v, fun e => e ▸ member⟩⟩

theorem State.poolEmptied_eq_some {s : State} {u : UnitId} {c : UnitConfig} {p : PoolId}
    (member : (s.unit u).config.pool = some p) (leaves : c.pool ≠ some p)
    (last : ∀ v, (s.unit v).config.pool = some p → v = u) (waits : (s.pool p).queue ≠ []) :
    s.poolEmptied u c = some p := by
  simp [State.poolEmptied, member, leaves, (State.members_eq_singleton_iff member).mpr last, waits]

theorem State.poolEmptied_eq_none {s : State} {u : UnitId} {c : UnitConfig}
    (h : ∀ p, (s.unit u).config.pool = some p → c.pool = some p ∨ (s.pool p).queue = [] ∨
      ∃ v, (s.unit v).config.pool = some p ∧ v ≠ u) : s.poolEmptied u c = none := by
  cases member : (s.unit u).config.pool with
  | none => simp [State.poolEmptied, member]
  | some p =>
    rcases h p member with stays | idle | ⟨v, other, ne⟩
    · simp [State.poolEmptied, member, stays]
    · simp [State.poolEmptied, member, idle]
    · have more : s.members p ≠ [u] := fun e => ne ((State.members_eq_singleton_iff member).mp e v other)
      simp [State.poolEmptied, member, more]

@[simp] theorem State.takenControl_poolEmptied (s : State) (code : Word) (u : UnitId) (c : UnitConfig) :
    (s.takenControl code).poolEmptied u c = s.poolEmptied u c := (rfl)

/-! ### CONFIGURE_UNIT, a lemma per check of R11 -/

section ConfigureUnit

variable {aid : AgentId} {s : State} {u : UnitId} {c : UnitConfig}

theorem exec_configureUnit (aid : AgentId) (s : State) : exec (.configureUnit aid) s = execConfigureUnit aid s := rfl

theorem configureUnit_frozen (sup : Supervises aid s) (frozen : s.frozen = true) :
    RefusesControl (.configureUnit aid) s 0x21 Reason.frozen 0 := by
  rw [RefusesControl, exec_configureUnit, execConfigureUnit, atControlStation_supervises sup]
  simp [frozen]

theorem configureUnit_noUnit (sup : Supervises aid s) (thawed : s.frozen = false)
    (named : unitOf (bitField s.control.arg0 0 8) = none) :
    RefusesControl (.configureUnit aid) s 0x21 Reason.noUnit 0 := by
  rw [RefusesControl, exec_configureUnit, execConfigureUnit, atControlStation_supervises sup]
  simp [thawed, named]

theorem configureUnit_badArgument (sup : Supervises aid s) (thawed : s.frozen = false)
    (named : unitOf (bitField s.control.arg0 0 8) = some u) (spelled : unitConfigOf s.control = none) :
    RefusesControl (.configureUnit aid) s 0x21 Reason.badArgument u.val := by
  rw [RefusesControl, exec_configureUnit, execConfigureUnit, atControlStation_supervises sup]
  simp [thawed, named, spelled]

theorem configureUnit_unitState (sup : Supervises aid s) (thawed : s.frozen = false)
    (named : unitOf (bitField s.control.arg0 0 8) = some u) (spelled : unitConfigOf s.control = some c)
    (inService : (s.unit u).state ≠ .offline) :
    RefusesControl (.configureUnit aid) s 0x21 Reason.unitState u.val := by
  rw [RefusesControl, exec_configureUnit, execConfigureUnit, atControlStation_supervises sup]
  simp [thawed, named, spelled, inService]

theorem configureUnit_inUse {p : PoolId} (sup : Supervises aid s) (thawed : s.frozen = false)
    (named : unitOf (bitField s.control.arg0 0 8) = some u) (spelled : unitConfigOf s.control = some c)
    (offline : (s.unit u).state = .offline) (emptied : s.poolEmptied u c = some p) :
    RefusesControl (.configureUnit aid) s 0x21 Reason.inUse p.val := by
  rw [RefusesControl, exec_configureUnit, execConfigureUnit, atControlStation_supervises sup]
  simp [thawed, named, spelled, offline, emptied]

theorem configureUnit_written (sup : Supervises aid s) (thawed : s.frozen = false)
    (named : unitOf (bitField s.control.arg0 0 8) = some u) (spelled : unitConfigOf s.control = some c)
    (offline : (s.unit u).state = .offline) (emptied : s.poolEmptied u c = none) :
    exec (.configureUnit aid) s =
      .next ((s.repliedControl 0x21 (.ok 0 0)).setUnit u { s.unit u with config := c }) := by
  rw [exec_configureUnit, execConfigureUnit, atControlStation_supervises sup]
  simp [thawed, named, spelled, offline, emptied]

end ConfigureUnit

/-! ### CONFIGURE_POOL, a lemma per check of R16 -/

section ConfigurePool

variable {aid : AgentId} {s : State} {p : PoolId} {o : OrderMode} {b : Bool}

theorem exec_configurePool (aid : AgentId) (s : State) : exec (.configurePool aid) s = execConfigurePool aid s := rfl

theorem configurePool_frozen (sup : Supervises aid s) (frozen : s.frozen = true) :
    RefusesControl (.configurePool aid) s 0x22 Reason.frozen 0 := by
  rw [RefusesControl, exec_configurePool, execConfigurePool, atControlStation_supervises sup]
  simp [frozen]

theorem configurePool_noPool (sup : Supervises aid s) (thawed : s.frozen = false)
    (named : poolOf (bitField s.control.arg0 0 8) = none) :
    RefusesControl (.configurePool aid) s 0x22 Reason.noPool 0 := by
  rw [RefusesControl, exec_configurePool, execConfigurePool, atControlStation_supervises sup]
  simp [thawed, named]

theorem configurePool_badArgument (sup : Supervises aid s) (thawed : s.frozen = false)
    (named : poolOf (bitField s.control.arg0 0 8) = some p) (spelled : poolOrderOf s.control = none) :
    RefusesControl (.configurePool aid) s 0x22 Reason.badArgument p.val := by
  rw [RefusesControl, exec_configurePool, execConfigurePool, atControlStation_supervises sup]
  simp [thawed, named, spelled]

theorem configurePool_inUse (sup : Supervises aid s) (thawed : s.frozen = false)
    (named : poolOf (bitField s.control.arg0 0 8) = some p) (spelled : poolOrderOf s.control = some (o, b))
    (waits : (s.pool p).queue ≠ []) : RefusesControl (.configurePool aid) s 0x22 Reason.inUse p.val := by
  rw [RefusesControl, exec_configurePool, execConfigurePool, atControlStation_supervises sup]
  simp [thawed, named, spelled, waits]

theorem configurePool_written (sup : Supervises aid s) (thawed : s.frozen = false)
    (named : poolOf (bitField s.control.arg0 0 8) = some p) (spelled : poolOrderOf s.control = some (o, b))
    (idle : (s.pool p).queue = []) :
    exec (.configurePool aid) s =
      .next ((s.repliedControl 0x22 (.ok 0 0)).setPool p { s.pool p with order := o, rotate := b }) := by
  rw [exec_configurePool, execConfigurePool, atControlStation_supervises sup]
  simp [thawed, named, spelled, idle]

end ConfigurePool

/-- Settles O19: each clause is the lemma of its check, once the argument words are read as what they spell. -/
theorem configuring : Obligations.Configuring := by
  refine ⟨fun aid s sup => ⟨configureUnit_frozen sup, fun thawed =>
      ⟨fun high => configureUnit_noUnit sup thawed (unitOf_eq_none high), fun u hu => ?_⟩⟩,
    fun aid s sup => ⟨configurePool_frozen sup, fun thawed =>
      ⟨fun high => configurePool_noPool sup thawed (poolOf_eq_none high), fun p hp => ?_⟩⟩⟩
  · have named := unitOf_of_eq_val hu
    refine ⟨fun out => configureUnit_badArgument sup thawed named (unitConfigOf_outOfRange out), fun c hc => ?_⟩
    have spelled := unitConfigOf_of_spelled hc
    refine ⟨configureUnit_unitState sup thawed named spelled, fun offline =>
      ⟨fun p member leaves last waits => ?_, fun kept => ?_⟩⟩
    · exact configureUnit_inUse sup thawed named spelled offline
        (State.poolEmptied_eq_some member leaves last waits)
    · exact configureUnit_written sup thawed named spelled offline (State.poolEmptied_eq_none kept)
  · have named := poolOf_of_eq_val hp
    refine ⟨fun out => configurePool_badArgument sup thawed named (poolOrderOf_outOfRange out), fun o b ho hb => ?_⟩
    have spelled := poolOrderOf_of_spelled ho hb
    exact ⟨configurePool_inUse sup thawed named spelled, configurePool_written sup thawed named spelled⟩

/-! ### The commands that name a unit and read it: QUERY_UNIT and PROBE (R17, R88) -/

section ReadUnit

variable {aid : AgentId} {s : State}

theorem readUnit_notAttached (ready : Ready aid s) (code : Word) (answer : State → UnitId → Answer)
    (away : s.isAttached aid = false) :
    atAgentStation code aid (fun s => s.readUnit aid (answer s)) s =
      .next (s.replied aid code (.refuse Reason.notAttached aid.val)) := by
  rw [atAgentStation_ready ready]
  simp [State.readUnit, away]

theorem readUnit_noUnit (ready : Ready aid s) (code : Word) (answer : State → UnitId → Answer)
    (attached : s.isAttached aid = true) (high : 63 < bitField (s.station aid).arg0 0 8) :
    atAgentStation code aid (fun s => s.readUnit aid (answer s)) s =
      .next (s.replied aid code (.refuse Reason.noUnit 0)) := by
  rw [atAgentStation_ready ready]
  simp [State.readUnit, attached, unitOf_eq_none high]

theorem readUnit_answered {u : UnitId} (ready : Ready aid s) (code : Word) (answer : State → UnitId → Answer)
    (attached : s.isAttached aid = true) (named : bitField (s.station aid).arg0 0 8 = u.val) :
    atAgentStation code aid (fun s => s.readUnit aid (answer s)) s =
      .next (s.replied aid code (answer (s.taken aid code) u)) := by
  rw [atAgentStation_ready ready]
  simp [State.readUnit, attached, unitOf_of_eq_val named]

end ReadUnit

theorem exec_queryUnit (aid : AgentId) (s : State) : exec (.queryUnit aid) s = execQueryUnit aid s := rfl

theorem exec_probe (aid : AgentId) (s : State) : exec (.probe aid) s = execProbe aid s := rfl

@[simp] theorem State.taken_unitAnswer (s : State) (aid : AgentId) (code : Word) (u : UnitId) :
    (s.taken aid code).unitAnswer u = s.unitAnswer u := (rfl)

@[simp] theorem State.taken_probeAnswer (s : State) (aid : AgentId) (code : Word) (u : UnitId) :
    (s.taken aid code).probeAnswer u = s.probeAnswer u := (rfl)

theorem queryUnit_answered {aid : AgentId} {s : State} {u : UnitId} (ready : Ready aid s)
    (attached : s.isAttached aid = true) (named : bitField (s.station aid).arg0 0 8 = u.val) :
    exec (.queryUnit aid) s = .next (s.replied aid 0x0B (s.unitAnswer u)) := by
  rw [exec_queryUnit, execQueryUnit, readUnit_answered ready _ _ attached named, State.taken_unitAnswer]

theorem probe_answered {aid : AgentId} {s : State} {u : UnitId} (ready : Ready aid s)
    (attached : s.isAttached aid = true) (named : bitField (s.station aid).arg0 0 8 = u.val) :
    exec (.probe aid) s = .next (s.replied aid 0x0C (s.probeAnswer u)) := by
  rw [exec_probe, execProbe, readUnit_answered ready _ _ attached named, State.taken_probeAnswer]

/-! ### The waiter that PROBE reports (R88) -/

theorem State.headWaiter_eq_none {s : State} {u : UnitId}
    (h : ∀ i, i ∈ s.rank (s.unit u).config.order (s.unit u).bottom (s.unit u).queue → s.eligible i u = false) :
    s.headWaiter u = none :=
  List.find?_eq_none.mpr fun i hi => by simp [h i hi]

theorem State.headWaiter_eq_some {s : State} {u : UnitId} {ahead behind : List SlotId} {i : SlotId}
    (ranked : s.rank (s.unit u).config.order (s.unit u).bottom (s.unit u).queue = ahead ++ i :: behind)
    (passed : ∀ j, j ∈ ahead → s.eligible j u = false) (eligible : s.eligible i u = true) :
    s.headWaiter u = some i :=
  List.find?_eq_some_iff_append.mpr ⟨eligible, ahead, behind, ranked, fun j hj => by simp [passed j hj]⟩

theorem State.fits_of_record {s : State} {i : SlotId} {r : Record} (found : s.record i = some r) (u : UnitId) :
    s.fits i u = s.compatible r.mode u := by
  simp [State.fits, found]

theorem State.probeAnswer_of_none {s : State} {u : UnitId} (h : s.headWaiter u = none) :
    s.probeAnswer u = .ok 0 0 := by
  simp [State.probeAnswer, h]

theorem State.probeAnswer_of_some {s : State} {u : UnitId} {i : SlotId} {r : Record} (head : s.headWaiter u = some i)
    (found : s.record i = some r) :
    s.probeAnswer u = .ok (presentWord (s.handle i) r.agent)
      (place 6 1 r.mode.no ||| place 16 2
        (if (s.unit u).mark.isSome then 2 else if s.compatible r.mode u then 0 else 1)) := by
  simp [State.probeAnswer, State.probeReason, head, found, State.fits_of_record found]

/-! ### LIST_HOLDER (R18) -/

theorem State.holders_ascending (s : State) (u : UnitId) : (s.holders u).Pairwise (· < ·) :=
  (List.pairwise_lt_finRange 96).filter _

@[simp] theorem State.takenControl_holderAnswer (s : State) (code : Word) (u : UnitId) (k : Nat) :
    (s.takenControl code).holderAnswer u k = s.holderAnswer u k := (rfl)

theorem State.holderAnswer_of_length_le {s : State} {u : UnitId} {k : Nat} (h : (s.holders u).length ≤ k) :
    s.holderAnswer u k = .ok 0 0 := by
  simp [State.holderAnswer, List.getElem?_eq_none h]

theorem State.holderAnswer_of_getElem? {s : State} {u : UnitId} {k : Nat} {i : SlotId} {r : Record}
    (selected : (s.holders u)[k]? = some i) (found : s.record i = some r) :
    s.holderAnswer u k = .ok (presentWord (s.handle i) r.agent) (s.holderWord i r) := by
  simp [State.holderAnswer, selected, found]

section ListHolder

variable {aid : AgentId} {s : State} {u : UnitId}

theorem exec_listHolder (aid : AgentId) (s : State) : exec (.listHolder aid) s = execListHolder aid s := rfl

theorem listHolder_noUnit (sup : Supervises aid s) (high : 63 < bitField s.control.arg0 0 8) :
    RefusesControl (.listHolder aid) s 0x35 Reason.noUnit 0 := by
  rw [RefusesControl, exec_listHolder, execListHolder, atControlStation_supervises sup]
  simp [unitOf_eq_none high]

theorem listHolder_badArgument (sup : Supervises aid s) (named : bitField s.control.arg0 0 8 = u.val)
    (high : 3 < bitField s.control.arg1 0 8) :
    RefusesControl (.listHolder aid) s 0x35 Reason.badArgument u.val := by
  rw [RefusesControl, exec_listHolder, execListHolder, atControlStation_supervises sup]
  simp [unitOf_of_eq_val named, high]

theorem listHolder_answered (sup : Supervises aid s) (named : bitField s.control.arg0 0 8 = u.val)
    (low : bitField s.control.arg1 0 8 ≤ 3) :
    exec (.listHolder aid) s =
      .next (s.repliedControl 0x35 (s.holderAnswer u (bitField s.control.arg1 0 8))) := by
  rw [exec_listHolder, execListHolder, atControlStation_supervises sup]
  simp [unitOf_of_eq_val named, low]

end ListHolder

/-- Settles O21: each command's refusals are the lemmas of its checks, and its answer is taken in the state before it. -/
theorem unitQueries : Obligations.UnitQueries := by
  refine ⟨⟨fun aid s ready => ⟨readUnit_notAttached ready _ _, fun attached =>
      ⟨readUnit_noUnit ready _ _ attached, fun u named => queryUnit_answered ready attached named⟩⟩,
    fun aid s sup => ⟨listHolder_noUnit sup, fun u k named index => ?_⟩,
    fun s u => ⟨s.holders_ascending u, s.mem_holders u⟩⟩,
    fun aid s ready => ⟨readUnit_notAttached ready _ _, fun attached =>
      ⟨readUnit_noUnit ready _ _ attached, fun u named =>
        ⟨fun unserved => ?_, fun ahead i behind r ranked passed eligible found => ?_⟩⟩⟩⟩
  · subst index
    refine ⟨listHolder_badArgument sup named, fun low few => ?_, fun i r low selected found => ?_⟩
    · rw [listHolder_answered sup named low, State.holderAnswer_of_length_le few]
    · rw [listHolder_answered sup named low, State.holderAnswer_of_getElem? selected found]
      rfl
  · rw [probe_answered ready attached named, State.probeAnswer_of_none (State.headWaiter_eq_none unserved)]
  · rw [probe_answered ready attached named,
      State.probeAnswer_of_some (State.headWaiter_eq_some ranked passed eligible) found]
    rfl

end Sys2Proof.Machine
end

section
/-! SUPPORT. Handles (spec/02_lease_records_and_handles.md): when the handle check finds no record, which commands begin
with it, and the statement on them. -/

namespace Sys2Proof.Machine

/-! ### The handle check (R33) -/

theorem slotOf_eq_some {n : Nat} {i : SlotId} (h : slotOf n = some i) : n = i.val := by
  obtain ⟨_, same⟩ := Option.dite_none_right_eq_some.mp h
  exact congrArg Fin.val (Option.some.inj same)

/-- What the handle check finds is what ARG0 names: the converse of `State.checkHandle_names`. -/
theorem State.names_of_checkHandle {s : State} {aid : AgentId} {i : SlotId} {r : Record}
    (found : s.checkHandle aid (s.station aid).arg0 = some (i, r)) : Names s aid i r := by
  unfold State.checkHandle at found
  split at found
  · cases found
  · next j slot =>
    split at found
    · cases found
    · next record =>
      obtain ⟨⟨serial, owner⟩, same⟩ := Option.ite_none_right_eq_some.mp found
      cases same
      exact ⟨record, owner, slotOf_eq_some slot, serial.symm⟩

theorem State.checkHandle_eq_none {s : State} {aid : AgentId} (stale : ∀ i r, ¬ Names s aid i r) :
    s.checkHandle aid (s.station aid).arg0 = none :=
  Option.eq_none_iff_forall_ne_some.mpr fun (i, r) found => stale i r (State.names_of_checkHandle found)

@[simp] theorem State.taken_checkHandle (s : State) (aid : AgentId) (code : Word) (b : AgentId) (arg0 : Word) :
    (s.taken aid code).checkHandle b arg0 = s.checkHandle b arg0 := (rfl)

/-! ### The commands that name a record by handle -/

section WithHandle

variable {aid : AgentId} {s : State}

theorem withHandle_notAttached (ready : Ready aid s) (code : Word) (body : State → SlotId → Record → State)
    (away : s.isAttached aid = false) :
    atAgentStation code aid (fun s => s.withHandle aid (body s)) s =
      .next (s.replied aid code (.refuse Reason.notAttached aid.val)) := by
  rw [atAgentStation_ready ready]
  simp [State.withHandle, away]

theorem withHandle_stale (ready : Ready aid s) (code : Word) (body : State → SlotId → Record → State)
    (attached : s.isAttached aid = true) (stale : ∀ i r, ¬ Names s aid i r) :
    atAgentStation code aid (fun s => s.withHandle aid (body s)) s = .next (s.replied aid code ⟨.stale, 0, 0⟩) := by
  rw [atAgentStation_ready ready]
  simp [State.withHandle, attached, State.checkHandle_eq_none stale, Answer.stale]

end WithHandle

/-- The six commands that begin with the handle check, each with its code (R33, Table 10-2). -/
def handleCommands (aid : AgentId) : List (Instr × Word) :=
  [(.release aid, 0x05#32), (.renew aid, 0x06#32), (.upgrade aid, 0x07#32), (.downgrade aid, 0x08#32),
    (.cancel aid, 0x09#32), (.queryLease aid, 0x0A#32)]

/-- Each of them is the handle check followed by what it does with the record. -/
theorem exec_handleCommand {aid : AgentId} {c : Instr} {code : Word} (h : (c, code) ∈ handleCommands aid) :
    ∃ body : State → SlotId → Record → State,
      ∀ s, exec c s = atAgentStation code aid (fun s => s.withHandle aid (body s)) s := by
  simp only [handleCommands, List.mem_cons, Prod.mk.injEq, List.not_mem_nil, or_false] at h
  rcases h with ⟨rfl, rfl⟩ | ⟨rfl, rfl⟩ | ⟨rfl, rfl⟩ | ⟨rfl, rfl⟩ | ⟨rfl, rfl⟩ | ⟨rfl, rfl⟩
  · exact ⟨fun s => s.releaseRecord aid, fun _ => rfl⟩
  · exact ⟨fun s => s.renewRecord aid, fun _ => rfl⟩
  · exact ⟨fun s => s.upgradeRecord aid, fun _ => rfl⟩
  · exact ⟨fun s => s.downgradeRecord aid, fun _ => rfl⟩
  · exact ⟨fun s => s.cancelRecord aid, fun _ => rfl⟩
  · exact ⟨fun s i r => s.answer aid (.ok r.target.word (s.statusWord i r)), fun _ => rfl⟩

/-- Settles O26: the two answers of the handle check, the same for each command that begins with it. -/
theorem handleCheck : Obligations.HandleCheck := by
  intro aid s ready c code listed
  obtain ⟨body, runs⟩ := exec_handleCommand listed
  refine ⟨fun away => ?_, fun attached stale => ?_⟩
  · rw [Refuses, runs, withHandle_notAttached ready code body away]
  · rw [runs, withHandle_stale ready code body attached stale]

end Sys2Proof.Machine
end

section
/-! SUPPORT. Wait queues (R56): how a record waits and in which queue, that no primitive change begins a wait, what an
allocation adds, and the statement that every step keeps the queues. -/

namespace Sys2Proof.Machine

/-! ### Waits and queues -/

/-- The agent and the target of a WAITING record. -/
def Record.wait (r : Record) : Option (AgentId × Target) :=
  match r.standing with
  | .waiting t _ _ => some (r.agent, t)
  | .held .. | .recalled .. | .spent .. => none

/-- Who waits for what in slot i. -/
def State.wait (s : State) (i : SlotId) : Option (AgentId × Target) := (s.record i).bind Record.wait

/-- The wait queue of a target. -/
def State.queueAt (s : State) : Target → List SlotId
  | .unit u => (s.unit u).queue
  | .pool p => (s.pool p).queue

theorem Record.wait_eq_some {r : Record} {a : AgentId} {x : Target} :
    r.wait = some (a, x) ↔ r.agent = a ∧ ∃ d c, r.standing = .waiting x d c := by
  unfold Record.wait
  cases r.standing <;> simp

theorem Record.wait_of_held {r : Record} {u : UnitId} {d : Nat} {c : Option Nat} (holds : r.standing = .held u d c) :
    r.wait = none := by
  simp [Record.wait, holds]

theorem Record.wait_of_isSpent {r : Record} (spent : r.isSpent = true) : r.wait = none := by
  unfold Record.isSpent at spent
  unfold Record.wait
  split at spent <;> simp_all

theorem Record.waits_of_wait {r : Record} {a : AgentId} {x : Target} (waits : r.wait = some (a, x)) :
    r.isWaiting = true ∧ r.target = x := by
  obtain ⟨_, d, c, standing⟩ := Record.wait_eq_some.mp waits
  unfold Record.isWaiting Record.target
  rw [standing]
  cases x <;> exact ⟨rfl, rfl⟩

/-- A lower countdown leaves a record waiting for what it waited for. -/
theorem Record.wait_lowered (r : Record) (c : Nat) :
    Record.wait { r with standing := r.standing.lowered c } = r.wait := by
  unfold Record.wait Standing.lowered
  cases r.standing <;> rfl

theorem State.wait_of_record {s : State} {i : SlotId} {r : Record} (found : s.record i = some r) :
    s.wait i = r.wait := by
  simp [State.wait, found]

theorem State.wait_of_free {s : State} {i : SlotId} (free : s.record i = none) : s.wait i = none := by
  simp [State.wait, free]

theorem State.wait_congr {s t : State} {i : SlotId} (same : t.record i = s.record i) : t.wait i = s.wait i := by
  rw [State.wait, same, State.wait]

theorem State.wait_eq_some {s : State} {i : SlotId} {a : AgentId} {x : Target} :
    s.wait i = some (a, x) ↔ ∃ r, s.record i = some r ∧ r.agent = a ∧ ∃ d c, r.standing = .waiting x d c := by
  simp only [State.wait, Option.bind_eq_some_iff, Record.wait_eq_some]

theorem State.owner_of_wait {s : State} {i : SlotId} {a : AgentId} {x : Target} (waits : s.wait i = some (a, x)) :
    s.owner i = some a := by
  obtain ⟨r, found, owner, _⟩ := State.wait_eq_some.mp waits
  simp [State.owner, found, owner]

/-- An agent that does not wait in a queue owns none of its waiters (R49, R53). -/
theorem State.wait_ne_of_waitsIn_eq_false {s : State} {a : AgentId} {queue : List SlotId}
    (absent : s.waitsIn a queue = false) {i : SlotId} (mem : i ∈ queue) (x : Target) : s.wait i ≠ some (a, x) := by
  intro waits
  obtain ⟨r, found, owner, d, c, standing⟩ := State.wait_eq_some.mp waits
  have here := List.any_eq_false.mp absent i mem
  simp [found, owner, Record.isWaiting, standing] at here

/-! ### The law, read through waits -/

/-- A queue of one target: its waiters, each once, and one of an agent. -/
theorem queueOf_iff (s : State) (x : Target) (queue : List SlotId) :
    QueueOf s x queue ↔
      queue.Nodup ∧ (∀ i, i ∈ queue ↔ ∃ a, s.wait i = some (a, x)) ∧
        ∀ i j a, s.wait i = some (a, x) → s.wait j = some (a, x) → i = j := by
  have member (i : SlotId) : (∃ a, s.wait i = some (a, x)) ↔
      ∃ r d c, s.record i = some r ∧ r.standing = Standing.waiting x d c := by
    simp [State.wait_eq_some]
  unfold QueueOf
  simp only [member]
  refine and_congr_right fun _ => and_congr_right fun mem =>
    ⟨fun one i j a hi hj => ?_, fun one i j hi hj same => ?_⟩
  · have inQueue {k : SlotId} (hk : s.wait k = some (a, x)) : k ∈ queue := (mem k).mpr ((member k).mp ⟨a, hk⟩)
    exact one i j (inQueue hi) (inQueue hj) ((State.owner_of_wait hi).trans (State.owner_of_wait hj).symm)
  · obtain ⟨a, hi⟩ := (member i).mpr ((mem i).mp hi)
    obtain ⟨b, hj⟩ := (member j).mpr ((mem j).mp hj)
    rw [State.owner_of_wait hi, State.owner_of_wait hj, Option.some.injEq] at same
    exact one i j a hi (same ▸ hj)

theorem queueLaw_iff (s : State) : QueueLaw s ↔ ∀ x, QueueOf s x (s.queueAt x) :=
  ⟨fun ⟨units, pools⟩ x => match x with
    | .unit u => units u
    | .pool p => pools p,
    fun all => ⟨fun u => all (.unit u), fun p => all (.pool p)⟩⟩

/-- A slot stands in no queue but that of its own wait. -/
theorem QueueLaw.mem_queueAt {s : State} (law : QueueLaw s) {i : SlotId} {x : Target} :
    i ∈ s.queueAt x ↔ ∃ a, s.wait i = some (a, x) := by
  obtain ⟨_, mem, _⟩ := (queueOf_iff s x _).mp ((queueLaw_iff s).mp law x)
  exact mem i

/-! ### Waits that end -/

/-- From s to t no wait begins; those in the slots that `keep` names go on, and every other ends and its slot leaves its
queue, where those behind it close up. -/
structure WaitsKept (keep : SlotId → Bool) (s t : State) : Prop where
  wait : ∀ i, t.wait i = if keep i then s.wait i else none
  queue : ∀ x, t.queueAt x = (s.queueAt x).filter keep

/-- Where no wait begins, and the waits that end leave their queues, the law is kept. -/
theorem WaitsKept.queueLaw {keep : SlotId → Bool} {s t : State} (kept : WaitsKept keep s t) (law : QueueLaw s) :
    QueueLaw t := by
  have before (i : SlotId) (w : AgentId × Target) : t.wait i = some w ↔ keep i = true ∧ s.wait i = some w := by
    rw [kept.wait, Option.ite_none_right_eq_some]
  refine (queueLaw_iff t).mpr fun x => (queueOf_iff t x _).mpr ?_
  obtain ⟨nodup, mem, one⟩ := (queueOf_iff s x _).mp ((queueLaw_iff s).mp law x)
  refine ⟨?_, fun i => ?_, fun i j a hi hj => ?_⟩
  · rw [kept.queue]; exact nodup.filter keep
  · rw [kept.queue, List.mem_filter, mem]
    simp only [before, exists_and_left, and_comm]
  · exact one i j a ((before i _).mp hi).2 ((before j _).mp hj).2

/-- A change that touches neither waits nor queues. -/
theorem QueueLaw.of_same {s t : State} (law : QueueLaw s) (wait : ∀ i, t.wait i = s.wait i)
    (queue : ∀ x, t.queueAt x = s.queueAt x) : QueueLaw t :=
  WaitsKept.queueLaw (keep := fun _ => true) ⟨wait, fun x => by rw [queue, List.filter_true]⟩ law

/-- Without records and waiters the law holds: a part just reset. -/
theorem queueLaw_of_empty {s : State} (free : ∀ i, s.record i = none) (units : ∀ u, (s.unit u).queue = [])
    (pools : ∀ p, (s.pool p).queue = []) : QueueLaw s :=
  ⟨fun u => by simp [QueueOf, units, free], fun p => by simp [QueueOf, pools, free]⟩

/-! ### What the shared operations make of waits and queues -/

/-- A unit record written with the queue it had leaves every queue as it was. -/
theorem State.queueAt_setUnit (s : State) {u : UnitId} {r : UnitRecord} (same : r.queue = (s.unit u).queue)
    (x : Target) : (s.setUnit u r).queueAt x = s.queueAt x := by
  cases x with
  | unit v =>
    simp only [State.queueAt, State.unit_setUnit]
    split
    · next h => rw [same, h]
    · rfl
  | pool p => rfl

theorem State.queueAt_setPool (s : State) {p : PoolId} {r : PoolRecord} (same : r.queue = (s.pool p).queue)
    (x : Target) : (s.setPool p r).queueAt x = s.queueAt x := by
  cases x with
  | unit v => rfl
  | pool q =>
    simp only [State.queueAt, State.pool_setPool]
    split
    · next h => rw [same, h]
    · rfl

theorem State.queueAt_congr {s t : State} (units : ∀ u, (t.unit u).queue = (s.unit u).queue)
    (pools : ∀ p, (t.pool p).queue = (s.pool p).queue) (x : Target) : t.queueAt x = s.queueAt x := by
  cases x with
  | unit u => exact units u
  | pool p => exact pools p

@[simp] theorem State.setMode_wait (s : State) (i : SlotId) (m : Mode) (j : SlotId) :
    (s.setMode i m).wait j = s.wait j := by
  unfold State.wait
  rw [State.setMode_record]
  split
  · rw [Option.bind_map]; rfl
  · rfl

/-- A record rewritten to one that waits as it did changes no wait. -/
theorem State.wait_of_rewrite {s t : State} {i : SlotId} {r r' : Record} (found : s.record i = some r)
    (same : r'.wait = r.wait) (record : ∀ j, t.record j = if j = i then some r' else s.record j) (j : SlotId) :
    t.wait j = s.wait j := by
  by_cases h : j = i
  · subst h
    rw [State.wait_of_record found, ← same]
    exact State.wait_of_record (by rw [record, if_pos rfl])
  · exact State.wait_congr (by rw [record, if_neg h])

/-! ### Departures from a queue -/

/-- Under the law a record that leaves its place stands in no queue afterwards. -/
theorem QueueLaw.leavePlace_queueAt {s : State} (law : QueueLaw s) {i : SlotId} {r : Record}
    (found : s.record i = some r) (x : Target) :
    (s.leavePlace i r).queueAt x = (s.queueAt x).filter (· ≠ i) := by
  have leaves : (s.leavePlace i r).queueAt x =
      if r.isWaiting = true ∧ r.target = x then (s.queueAt x).filter (· ≠ i) else s.queueAt x := by
    cases x with
    | unit u => simp only [State.queueAt, State.leavePlace_unit]
    | pool p => simp only [State.queueAt, State.leavePlace_pool]
  rw [leaves]
  split
  · rfl
  · next elsewhere =>
    have absent : i ∉ s.queueAt x := fun mem => by
      obtain ⟨a, waits⟩ := law.mem_queueAt.mp mem
      exact elsewhere (Record.waits_of_wait (State.wait_of_record found ▸ waits))
    refine (List.filter_eq_self.mpr fun j mem => ?_).symm
    simpa using fun same : j = i => absent (same ▸ mem)

/-- The record r of slot i leaves its place, and what is left in the slot does not wait. -/
theorem QueueLaw.of_departure {s t : State} (law : QueueLaw s) {i : SlotId} {r : Record} (left : Option Record)
    (found : s.record i = some r) (ended : left.bind Record.wait = none)
    (record : ∀ j, t.record j = if j = i then left else s.record j)
    (queue : ∀ x, t.queueAt x = (s.leavePlace i r).queueAt x) : QueueLaw t := by
  refine WaitsKept.queueLaw (keep := (· ≠ i)) ⟨fun j => ?_, fun x => ?_⟩ law
  · by_cases h : j = i
    · simp [State.wait, record, h, ended]
    · simp [State.wait, record, h]
  · exact (queue x).trans (law.leavePlace_queueAt found x)

theorem QueueLaw.remove {s : State} (law : QueueLaw s) {i : SlotId} {r : Record} (found : s.record i = some r) :
    QueueLaw (s.remove i r) :=
  law.of_departure none found rfl (s.remove_record i r)
    (State.queueAt_congr (fun u => by rw [State.remove_unit]) fun p => by rw [State.remove_pool])

theorem QueueLaw.markSpent {s : State} (law : QueueLaw s) {i : SlotId} {r : Record} (found : s.record i = some r)
    (cause : SpentCause) : QueueLaw (s.markSpent i r cause) :=
  law.of_departure _ found rfl (s.markSpent_record i r cause)
    (State.queueAt_congr (fun u => by rw [State.markSpent_unit]) fun p => by rw [State.markSpent_pool])

/-- A HELD record's place is its unit's mark, which the recall clears. -/
theorem QueueLaw.markRecalled {s : State} (law : QueueLaw s) {i : SlotId} {r : Record} {u : UnitId} {d : Nat}
    {c : Option Nat} (found : s.record i = some r) (holds : r.standing = .held u d c) :
    QueueLaw (s.markRecalled i r u d) := by
  have place : s.leavePlace i r = s.clearMarkOf u i := by rw [State.leavePlace, holds]
  refine law.of_departure _ found rfl (s.markRecalled_record i r u d) ?_
  rw [place]
  exact State.queueAt_congr (fun v => by rw [State.markRecalled_unit]) fun p => by simp

/-- A waiter's place is its queue, which the grant takes it out of. -/
theorem QueueLaw.grant {s : State} (law : QueueLaw s) (own : Option SlotId) (u : UnitId) {i : SlotId} {r : Record}
    {x : Target} {d : Nat} {c : Option Nat} (found : s.record i = some r) (waits : r.standing = .waiting x d c) :
    QueueLaw (s.grant own u i) := by
  have place : s.leavePlace i r = s.dequeue x i := by rw [State.leavePlace, waits]
  refine law.of_departure _ found rfl (s.grant_record own u i r x d c found waits) ?_
  rw [place]
  exact State.queueAt_congr (fun v => by rw [s.grant_unit own u i r x d c found waits, State.dequeue_unit])
    fun p => by rw [s.grant_pool own u i r x d c found waits, State.dequeue_pool]

/-! ### Changes that leave every wait as it is -/

/-- No record, no unit and no pool is written. -/
theorem QueueLaw.of_unwritten {s t : State} (law : QueueLaw s) (record : ∀ j, t.record j = s.record j)
    (units : ∀ u, t.unit u = s.unit u) (pools : ∀ p, t.pool p = s.pool p) : QueueLaw t :=
  law.of_same (fun j => State.wait_congr (record j))
    (State.queueAt_congr (fun u => by rw [units]) fun p => by rw [pools])

/-- The record of slot i is rewritten to one that waits as it did; no unit and no pool is written. -/
theorem QueueLaw.of_rewrite {s t : State} (law : QueueLaw s) {i : SlotId} {r r' : Record} (found : s.record i = some r)
    (same : r'.wait = r.wait) (record : ∀ j, t.record j = if j = i then some r' else s.record j)
    (units : ∀ u, t.unit u = s.unit u) (pools : ∀ p, t.pool p = s.pool p) : QueueLaw t :=
  law.of_same (State.wait_of_rewrite found same record)
    (State.queueAt_congr (fun u => by rw [units]) fun p => by rw [pools])

theorem QueueLaw.setUnit {s : State} (law : QueueLaw s) {u : UnitId} {r : UnitRecord}
    (same : r.queue = (s.unit u).queue) : QueueLaw (s.setUnit u r) :=
  law.of_same (fun _ => rfl) (s.queueAt_setUnit same)

theorem QueueLaw.setPool {s : State} (law : QueueLaw s) {p : PoolId} {r : PoolRecord}
    (same : r.queue = (s.pool p).queue) : QueueLaw (s.setPool p r) :=
  law.of_same (fun _ => rfl) (s.queueAt_setPool same)

theorem QueueLaw.clearMarkOf {s : State} (law : QueueLaw s) (u : UnitId) (i : SlotId) :
    QueueLaw (s.clearMarkOf u i) := by
  unfold State.clearMarkOf
  split
  · exact law.setUnit rfl
  · exact law

theorem QueueLaw.completeDrain {s : State} (law : QueueLaw s) (u : UnitId) : QueueLaw (s.completeDrain u) := by
  unfold State.completeDrain
  split
  · exact law.setUnit rfl
  · exact law

theorem QueueLaw.setMode {s : State} (law : QueueLaw s) (i : SlotId) (m : Mode) : QueueLaw (s.setMode i m) :=
  law.of_same (s.setMode_wait i m)
    (State.queueAt_congr (fun u => by rw [State.setMode_unit]) fun p => by rw [State.setMode_pool])

/-- The start of a walk frees SPENT records alone, and they wait for nothing (R141). -/
theorem QueueLaw.beginWalk {s : State} (law : QueueLaw s) (a : AgentId) : QueueLaw (s.beginWalk a) := by
  refine law.of_same (fun j => ?_)
    (State.queueAt_congr (fun u => by rw [State.beginWalk_unit]) fun p => by rw [State.beginWalk_pool])
  have after := s.beginWalk_record a j
  split at after
  · next freed =>
    obtain ⟨r, found, own⟩ := (Option.any_eq_true _ _).mp freed
    have spent : r.isSpent = true := ((Bool.and_eq_true _ _).mp own).2
    rw [State.wait_of_free after, State.wait_of_record found, Record.wait_of_isSpent spent]
  · exact State.wait_congr after

/-! ### The primitive changes -/

/-- Every primitive change keeps the queues. -/
theorem Primitive.keeps_queueLaw {s t : State} (change : Primitive s t) (law : QueueLaw s) : QueueLaw t := by
  cases change with
  | grant own u i r x d c found waits => exact law.grant own u found waits
  | unitBottom => exact law.setUnit rfl
  | poolBottom => exact law.setPool rfl
  | upgrade u i =>
    have cleared : QueueLaw (s.clearMark u) := law.setUnit rfl
    exact (cleared.setMode i .exclusive).of_unwritten (State.post_record _ _ _) (State.post_unit _ _ _)
      (State.post_pool _ _ _)
  | clearMark => exact law.setUnit rfl
  | setMark => exact law.setUnit rfl
  | upgradeAlone u i => exact (law.clearMarkOf u i).setMode i .exclusive
  | downgrade _ i => exact law.setMode i .shared
  | depth i r _ _ _ _ found holds =>
    exact law.of_rewrite found (by rw [Record.wait_of_held holds]; rfl) (s.record_writeRecord i _) (fun _ => rfl)
      fun _ => rfl
  | renew i r _ _ _ _ found holds =>
    exact law.of_rewrite found (by rw [Record.wait_of_held holds]; rfl) (s.record_loadRecord i _) (fun _ => rfl)
      fun _ => rfl
  | remove _ _ found => exact law.remove found
  | readSpent a _ rest _ _ _ found =>
    have read : QueueLaw (s.setNotice a { s.notice a with entries := rest }) := law
    exact read.remove found
  | spend _ _ cause found => exact law.markSpent found cause
  | markRecalled _ _ _ _ _ found holds => exact law.markRecalled found holds
  | completeDrain u => exact law.completeDrain u
  | endWalk a => exact law.of_unwritten (s.endWalk_record a) (s.endWalk_unit a) (s.endWalk_pool a)
  | beginWalk a => exact law.beginWalk a
  | countdown i r _ found =>
    exact law.of_rewrite found (r.wait_lowered _) (s.record_writeRecord i _) (fun _ => rfl) fun _ => rfl
  | configureUnit => exact law.setUnit rfl
  | configurePool => exact law.setPool rfl
  | openUnit => exact law.setUnit rfl
  | startDrain => exact law.setUnit rfl
  | resetLive =>
    exact queueLaw_of_empty s.cleared_record (fun u => by rw [State.cleared_unit]) fun p => by rw [State.cleared_pool]
  | hardwareReset =>
    exact queueLaw_of_empty s.hardwareReset_record (fun u => by rw [State.hardwareReset_unit])
      fun p => by rw [State.hardwareReset_pool]
  | _ => exact law

/-! ### An allocation -/

theorem State.allocate_queueAt (s : State) (i : SlotId) (a : AgentId) (m : Mode) (y : Target) (d w : Nat) (x : Target) :
    (s.allocate i a m y d w).queueAt x = if y = x then s.queueAt x ++ [i] else s.queueAt x := by
  cases x with
  | unit u => simp only [State.queueAt, State.allocate_unit]; split <;> rfl
  | pool p => simp only [State.queueAt, State.allocate_pool]; split <;> rfl

theorem State.allocate_wait (s : State) (i : SlotId) (a : AgentId) (m : Mode) (y : Target) (d w : Nat) (j : SlotId) :
    (s.allocate i a m y d w).wait j = if j = i then some (a, y) else s.wait j := by
  unfold State.wait
  rw [State.allocate_record]
  split <;> rfl

/-- A new waiter of an agent that does not yet wait for the target joins the target's queue and no other. -/
theorem QueueLaw.allocate {s : State} (law : QueueLaw s) {i : SlotId} {a : AgentId} {y : Target}
    (free : s.record i = none) (absent : s.waitsIn a (s.queueAt y) = false) (m : Mode) (d w : Nat) :
    QueueLaw (s.allocate i a m y d w) := by
  have idle : s.wait i = none := State.wait_of_free free
  have first (j : SlotId) : s.wait j ≠ some (a, y) := fun waits =>
    State.wait_ne_of_waitsIn_eq_false absent (law.mem_queueAt.mpr ⟨a, waits⟩) y waits
  refine (queueLaw_iff _).mpr fun x => (queueOf_iff _ x _).mpr ?_
  obtain ⟨nodup, mem, one⟩ := (queueOf_iff s x _).mp ((queueLaw_iff s).mp law x)
  have outside : i ∉ s.queueAt x := fun h => by simpa [idle] using (mem i).mp h
  simp only [State.allocate_queueAt, State.allocate_wait]
  refine ⟨?nodup, fun j => ?mem, fun j k b hj hk => ?one⟩
  case nodup =>
    split
    · simpa [List.nodup_append, nodup] using fun j mem (h : j = i) => outside (h ▸ mem)
    · exact nodup
  case mem =>
    by_cases same : y = x <;> by_cases new : j = i <;> simp [same, new, mem, idle]
  case one =>
    split at hj <;> split at hk
    · next hj' hk' => rw [hj', hk']
    · cases hj; exact absurd hk (first k)
    · cases hk; exact absurd hj (first j)
    · exact one j k b hj hk

/-- The checks of ACQUIRE and ACQUIRE_ANY establish that the agent does not yet wait in the queue (R49, R53). -/
theorem Allocation.keeps_queueLaw {s t : State} (new : Allocation s t) (law : QueueLaw s) : QueueLaw t := by
  obtain ⟨i, a, mode, x, requested, waitLimit, free, _, _, _, _, onUnit, onPool⟩ := new
  refine law.allocate free ?_ mode requested waitLimit
  cases x with
  | unit u =>
    obtain ⟨_, _, _, absent⟩ := onUnit u rfl
    exact absent
  | pool p =>
    obtain ⟨_, absent⟩ := onPool p rfl
    exact absent

/-- Settles O53: every primitive change and every allocation keep the queues, and power-on empties them. -/
theorem waitQueuesKept : Obligations.WaitQueuesKept := by
  refine fun s t => step_keeps (P := QueueLaw) (fun _ _ => Primitive.keeps_queueLaw)
    (fun _ _ => Allocation.keeps_queueLaw) (fun straps _ _ => ?_) (fun _ _ kept => kept) s t
  have fresh : QueueLaw (State.afterPowerOn straps) :=
    queueLaw_of_empty (State.afterPowerOn_record straps) (fun u => by rw [State.afterPowerOn_unit])
      fun p => by rw [State.afterPowerOn_pool]
  exact fresh

end Sys2Proof.Machine
end

section
/-! SUPPORT. Grant arbitration (spec/04_grant_arbitration.md): what eligibility, compatibility and clearance read, the
order of the ring, the stages of a unit pass, and the statements on them. -/

namespace Sys2Proof.Machine

/-! ### Eligibility and compatibility (R72, R73) -/

theorem State.isAttached_iff (s : State) (a : AgentId) : s.isAttached a = true ↔ (s.agent a).state = .attached := by
  simp [State.isAttached]

theorem State.clearance_iff (s : State) (a : AgentId) :
    s.clearance a = true ↔ a = s.supervisor ∨ (s.agent a).clearance = true := by
  simp [State.clearance]

theorem State.bandPermits_iff (s : State) (a : AgentId) (u : UnitId) :
    s.bandPermits a u = true ↔ u.val < s.ceiling ∨ s.clearance a = true := by
  simp [State.bandPermits, State.inBand]

theorem State.mayBeGranted_iff (s : State) (a : AgentId) (u : UnitId) :
    s.mayBeGranted a u = true ↔
      (s.agent a).state = .attached ∧ (s.agent a).held = false ∧ (u.val < s.ceiling ∨ s.clearance a = true) := by
  simp [State.mayBeGranted, State.isAttached_iff, State.bandPermits_iff, and_assoc]

theorem State.eligible_iff_permitted (s : State) (i : SlotId) (u : UnitId) :
    s.eligible i u = true ↔ ∃ r, s.record i = some r ∧ r.isWaiting = true ∧
      (s.agent r.agent).state = .attached ∧ (s.agent r.agent).held = false ∧
      (u.val < s.ceiling ∨ s.clearance r.agent = true) := by
  simp only [State.eligible, Option.any_eq_true, Bool.and_eq_true, State.mayBeGranted_iff]

theorem State.isShared_of_record {s : State} {i : SlotId} {r : Record} (found : s.record i = some r) :
    s.isShared i = true ↔ r.mode = .shared := by
  simp [State.isShared, found]

/-- Every holder of a unit is SHARED: the flags of its holder set and its holder records say the same. -/
theorem State.all_holders_isShared_iff (s : State) (u : UnitId) :
    (s.holders u).all s.isShared = true ↔
      ∀ i r, s.record i = some r → r.holding = some u → r.mode = .shared := by
  simp only [List.all_eq_true, State.mem_holders]
  refine forall_congr' fun i => ⟨fun all r found holds => ?_, fun all ⟨r, found, holds⟩ => ?_⟩
  · exact (State.isShared_of_record found).mp (all ⟨r, found, holds⟩)
  · exact (State.isShared_of_record found).mpr (all r found holds)

theorem State.compatible_iff (s : State) (mode : Mode) (u : UnitId) :
    s.compatible mode u = true ↔ s.holders u = [] ∨
      (mode = .shared ∧ (∀ i r, s.record i = some r → r.holding = some u → r.mode = .shared) ∧
        (s.holders u).length < (s.unit u).config.capacity) := by
  simp only [State.compatible, Bool.or_eq_true, Bool.and_eq_true, List.isEmpty_iff, beq_iff_eq, decide_eq_true_eq,
    State.all_holders_isShared_iff, and_assoc]

/-! ### The ring (R80, R81) -/

/-- The agent k places on from the one just after the bottom agent stands at place k of the ring. -/
theorem ring_place (b k : AgentId) : ((b + 1 + k).val + 15 - b.val) % 16 = k.val := by
  have bLow := b.isLt
  have kLow := k.isLt
  have one : (1 : AgentId).val = 1 := rfl
  rw [Fin.val_add, Fin.val_add, one]
  omega

/-- Each agent stands somewhere on the ring, so a record with an owner is ranked. -/
theorem State.mem_rank_ring {s : State} {b : AgentId} {queue : List SlotId} {i : SlotId} :
    i ∈ s.rank .ring b queue ↔ i ∈ queue ∧ ∃ a, s.owner i = some a := by
  simp only [State.rank, allAgents, List.mem_flatMap, List.mem_finRange, true_and, List.mem_filter, beq_iff_eq,
    exists_and_left]
  refine and_congr_right fun _ => ⟨fun ⟨k, owner⟩ => ⟨_, owner⟩, fun ⟨a, owner⟩ => ⟨a - (b + 1), ?_⟩⟩
  rw [owner, add_sub_cancel]

/-- Where no two records of a queue are of one agent, the places of their agents ascend along the ring. -/
theorem State.rank_ring_pairwise {s : State} {b : AgentId} {queue : List SlotId} (nodup : queue.Nodup)
    (one : ∀ i j, i ∈ queue → j ∈ queue → s.owner i = s.owner j → i = j) :
    (s.rank .ring b queue).Pairwise fun i j => ∀ x y, s.owner i = some x → s.owner j = some y →
      (x.val + 15 - b.val) % 16 < (y.val + 15 - b.val) % 16 := by
  refine List.pairwise_flatMap.mpr ⟨fun k _ => ?sameAgent, (List.pairwise_lt_finRange 16).imp fun {k l} before => ?_⟩
  case sameAgent =>
    refine (nodup.filter _).imp_of_mem fun {i j} hi hj apart => ?_
    obtain ⟨hi, ownerI⟩ := List.mem_filter.mp hi
    obtain ⟨hj, ownerJ⟩ := List.mem_filter.mp hj
    exact absurd (one i j hi hj ((eq_of_beq ownerI).trans (eq_of_beq ownerJ).symm)) apart
  · intro i hi j hj x y ownerX ownerY
    have atK := eq_of_beq (List.mem_filter.mp hi).2
    have atL := eq_of_beq (List.mem_filter.mp hj).2
    cases ownerX.symm.trans atK
    cases ownerY.symm.trans atL
    rw [ring_place, ring_place]
    exact before

/-- The ring ranks the records of the queue and no others, each once: each of them has an owner, and no place of the ring
lies before itself. -/
theorem State.rank_ring_perm {s : State} {b : AgentId} {queue : List SlotId} (nodup : queue.Nodup)
    (owned : ∀ i, i ∈ queue → ∃ a, s.owner i = some a)
    (one : ∀ i j, i ∈ queue → j ∈ queue → s.owner i = s.owner j → i = j) :
    (s.rank .ring b queue).Perm queue := by
  have ranked : (s.rank .ring b queue).Nodup := by
    refine (State.rank_ring_pairwise nodup one).imp_of_mem fun {i j} hi _ before same => ?_
    obtain ⟨_, a, owner⟩ := State.mem_rank_ring.mp hi
    exact lt_irrefl _ (before a a owner (same ▸ owner))
  refine (List.perm_ext_iff_of_nodup ranked nodup).mpr fun i => ?_
  rw [State.mem_rank_ring]
  exact and_iff_left_of_imp (owned i)

/-- Settles O45: the rank of RING mode rests on the queue's having one record of an agent (R56). -/
theorem eligibilityAndRank : Obligations.EligibilityAndRank := by
  refine ⟨⟨State.eligible_iff_permitted, State.compatible_iff, State.clearance_iff⟩, fun _ _ _ => rfl,
    fun s b t queue ⟨nodup, mem, one⟩ => ?_⟩
  refine ⟨State.rank_ring_perm nodup (fun i hi => ?_) one, State.rank_ring_pairwise nodup one⟩
  obtain ⟨r, _, _, found, _⟩ := (mem i).mp hi
  exact ⟨r.agent, by rw [State.owner, found, Option.map_some]⟩

/-! ### The stages of a unit pass (R70, R71, R74, R77) -/

section Passes

variable {s : State} {u : UnitId}

theorem State.unitPass_of_ne_opened (unserved : (s.unit u).state ≠ .opened) (own : Option SlotId) :
    s.unitPass own u = s := by
  unfold State.unitPass
  split
  · rfl
  · rfl
  · next opened => exact absurd opened unserved

theorem State.offer_of_ne_opened (unserved : (s.unit u).state ≠ .opened) (own : Option SlotId) (p : PoolId) :
    s.offer own p u = s :=
  if_neg fun ⟨_, opened, _⟩ => unserved opened

theorem State.setMode_of_record {i : SlotId} {r : Record} (found : s.record i = some r) (m : Mode) :
    s.setMode i m = s.writeRecord i (some { r with mode := m }) := by
  simp only [State.setMode, found]

/-- Stage A: with a mark the pass is the look at the pending upgrade, and no other stage runs. -/
theorem State.unitPass_of_mark {i : SlotId} (opened : (s.unit u).state = .opened) (mark : (s.unit u).mark = some i)
    (own : Option SlotId) :
    s.unitPass own u =
      if s.holders u = [i] then ((s.clearMark u).setMode i .exclusive).post .upgraded i else s := by
  simp only [State.unitPass, opened, mark]

/-- Without a mark stage B runs, and stage C where it leaves the unit without a holder. -/
theorem State.unitPass_of_unmarked (opened : (s.unit u).state = .opened) (unmarked : (s.unit u).mark = none)
    (own : Option SlotId) :
    s.unitPass own u =
      if (s.stageB own u).holders u = [] then (s.stageB own u).stageC own u else s.stageB own u := by
  simp only [State.unitPass, opened, unmarked, List.isEmpty_iff]

end Passes

/-- Settles O46: a case for each state of the unit and each reading of its mark. -/
theorem passStageA : Obligations.PassStageA := by
  refine fun s own u => ⟨fun unserved =>
      ⟨State.unitPass_of_ne_opened unserved own, State.offer_of_ne_opened unserved own⟩,
    fun opened => ⟨fun i mark => ⟨fun others => ?others, fun alone r found => ?alone⟩,
      fun unmarked => ⟨fun held => ?held, fun free => ?free⟩⟩⟩
  case others => rw [State.unitPass_of_mark opened mark, if_neg others]
  case alone =>
    rw [State.unitPass_of_mark opened mark, if_pos alone,
      State.setMode_of_record ((State.clearMark_record s u i).trans found), State.clearMark]
  case held => rw [State.unitPass_of_unmarked opened unmarked, if_neg held]
  case free => rw [State.unitPass_of_unmarked opened unmarked, if_pos free]

end Sys2Proof.Machine
end

section
/-! SUPPORT. Holding, releasing and converting leases (spec/05_holding_releasing_and_converting_leases.md): the depth of a
holder record, RENEW, UPGRADE and CANCEL on a record that stands, what keeps the marks of pending upgrades, and the
statements on them. -/

namespace Sys2Proof.Machine

/-! ### The depth of a holder record (R94) -/

/-- The depth that a standing gives, if it gives one, lies between 1 and 15. -/
def Standing.depthInRange (x : Standing) : Prop := ∀ d, x.depth = some d → 1 ≤ d ∧ d ≤ 15

theorem Standing.depthInRange_of_depth_eq {x y : Standing} (same : y.depth = x.depth) (range : x.depthInRange) :
    y.depthInRange :=
  fun d h => range d (same ▸ h)

theorem Standing.depthInRange_of_none {x : Standing} (absent : x.depth = none) : x.depthInRange :=
  fun _ h => nomatch absent.symm.trans h

/-- The law says of each record's standing alone what the range of a depth is. -/
theorem depthLaw_iff (s : State) : DepthLaw s ↔ ∀ i r, s.record i = some r → r.standing.depthInRange :=
  ⟨fun law i r found d => law i r d found, fun all i r d found => all i r found d⟩

/-- A lower countdown leaves the depth as it is. -/
theorem Standing.depth_lowered (x : Standing) (c : Nat) : (x.lowered c).depth = x.depth := by
  cases x <;> rfl

/-- A grant starts a lease at depth 1, a depth is written above 0 and up to 15 or not above the present one, and no other
change of a record writes its depth. -/
theorem RecordChange.keeps_depthInRange {s : State} {j : SlotId} {r r' : Record} (change : RecordChange s j r r')
    (range : r.standing.depthInRange) : r'.standing.depthInRange := by
  cases change with
  | same => exact range
  | granted => rintro d ⟨⟩; omega
  | exclusive => exact range
  | shared => exact range
  | depth u d d' c holds low high =>
    have before := range d (by rw [holds]; rfl)
    rintro _ ⟨⟩
    omega
  | renewed u d c requested holds => exact Standing.depthInRange_of_depth_eq (by rw [holds]; rfl) range
  | spent => exact Standing.depthInRange_of_none rfl
  | recalled u d c holds => exact Standing.depthInRange_of_depth_eq (by rw [holds]; rfl) range
  | lowered c => exact Standing.depthInRange_of_depth_eq (r.standing.depth_lowered _) range

theorem Primitive.keeps_depthLaw {s t : State} (change : Primitive s t) (law : DepthLaw s) : DepthLaw t := by
  rw [depthLaw_iff] at law ⊢
  intro j r' found
  obtain ⟨r, before, rewritten⟩ := change.record_change found
  exact rewritten.keeps_depthInRange (law j r before)

/-- A new record is WAITING and has no depth. -/
theorem Allocation.keeps_depthLaw {s t : State} (new : Allocation s t) (law : DepthLaw s) : DepthLaw t := by
  obtain ⟨i, a, mode, x, requested, waitLimit⟩ := new
  rw [depthLaw_iff] at law ⊢
  intro j r found
  rw [State.allocate_record] at found
  split at found
  · cases found; exact Standing.depthInRange_of_none rfl
  · exact law j r found

/-- Settles O51: every change of a record keeps its depth in range, and power-on leaves no record. -/
theorem depthKept : Obligations.DepthKept := by
  refine fun s t => step_keeps (P := DepthLaw) (fun _ _ => Primitive.keeps_depthLaw)
    (fun _ _ => Allocation.keeps_depthLaw) (fun straps _ _ => ?_) (fun _ _ kept => kept) s t
  intro i r d found
  exact nomatch (State.afterPowerOn_record straps i).symm.trans found

/-! ### The commands that name a holder record (R89) -/

theorem Record.target_of_waiting {r : Record} {t : Target} {d : Nat} {c : Option Nat}
    (h : r.standing = .waiting t d c) : r.target = t := by
  cases t <;> simp [Record.target, h, Standing.claim, Claim.target]

theorem Record.target_of_held {r : Record} {u : UnitId} {d : Nat} {c : Option Nat} (h : r.standing = .held u d c) :
    r.target = .unit u := by
  simp [Record.target, h, Standing.claim, Claim.target]

theorem Record.target_of_recalled {r : Record} {u : UnitId} {d g : Nat} (h : r.standing = .recalled u d g) :
    r.target = .unit u := by
  simp [Record.target, h, Standing.claim, Claim.target]

theorem Record.holding_of_held {r : Record} {u : UnitId} {d : Nat} {c : Option Nat} (h : r.standing = .held u d c) :
    r.holding = some u := by
  simp [Record.holding, h]

/-- The LAPSED answer gives the target that the SPENT record had, and its cause. -/
theorem Record.lapsedAnswer_of_spent {r : Record} {k : Claim} {cause : SpentCause} (h : r.standing = .spent k cause) :
    r.lapsedAnswer = ⟨.lapsed, k.target.word, place 12 3 cause.no⟩ := by
  simp [Record.lapsedAnswer, Record.target, h, Standing.claim, Standing.causeNo]

theorem State.holding_of_record {s : State} {i : SlotId} {r : Record} (found : s.record i = some r) :
    s.holding i = r.holding := by
  simp [State.holding, found]

/-- The upgrade-pending field of a holder record reads its unit's mark (R26). -/
theorem State.upgradePending_of_holding {s : State} {i : SlotId} {u : UnitId} (holds : s.holding i = some u) :
    s.upgradePending i = ((s.unit u).mark == some i) := by
  simp [State.upgradePending, holds]

section Named

variable {aid : AgentId} {s : State} {i : SlotId} {r : Record}

theorem exec_renew_names (ready : Ready aid s) (attached : s.isAttached aid = true) (names : Names s aid i r) :
    exec (.renew aid) s = .next ((s.taken aid 0x06).renewRecord aid i r) :=
  withHandle_names 0x06 ready attached names fun s => s.renewRecord aid

theorem exec_upgrade_names (ready : Ready aid s) (attached : s.isAttached aid = true) (names : Names s aid i r) :
    exec (.upgrade aid) s = .next ((s.taken aid 0x07).upgradeRecord aid i r) :=
  withHandle_names 0x07 ready attached names fun s => s.upgradeRecord aid

theorem exec_cancel_names (ready : Ready aid s) (attached : s.isAttached aid = true) (names : Names s aid i r) :
    exec (.cancel aid) s = .next ((s.taken aid 0x09).cancelRecord aid i r) :=
  withHandle_names 0x09 ready attached names fun s => s.cancelRecord aid

/-- A command that names a WAITING record and may act on a holder alone is refused NOT_HOLDER (R89). -/
theorem State.taken_refuseNotHolder {t : Target} {d : Nat} {c : Option Nat} (waits : r.standing = .waiting t d c)
    (code : Word) : (s.taken aid code).refuseNotHolder aid r =
      s.replied aid code (.refuse Reason.notHolder t.number) := by
  rw [State.refuseNotHolder, Record.target_of_waiting waits, State.taken_answer]

end Named

/-! ### RENEW (R96, R97) -/

/-- The four cases of Table 3-4. -/
theorem effectiveDuration_of_table {requested : Nat} {limit c : Option Nat}
    (table : (∃ l, limit = some l ∧ requested ≠ 0 ∧ c = some (min requested l)) ∨
      (∃ l, limit = some l ∧ requested = 0 ∧ c = some l) ∨
      (limit = none ∧ requested ≠ 0 ∧ c = some requested) ∨ (limit = none ∧ requested = 0 ∧ c = none)) :
    effectiveDuration requested limit = c := by
  rcases table with ⟨l, rfl, asked, rfl⟩ | ⟨l, rfl, rfl, rfl⟩ | ⟨rfl, asked, rfl⟩ | ⟨rfl, rfl, rfl⟩
  · simp [effectiveDuration, asked]
  · simp [effectiveDuration]
  · simp [effectiveDuration, asked]
  · simp [effectiveDuration]

/-- Settles O28: the duration argument, and then the record's state, decide. -/
theorem renew : Obligations.Renew := by
  intro aid s i r d ready attached names argument
  have run := exec_renew_names ready attached names
  unfold State.renewRecord at run
  simp only [State.taken_station_arg1, argument] at run
  refine ⟨fun long => ?tooLong, fun range => ?_⟩
  case tooLong => rw [Refuses, run, if_pos long, State.taken_answer]
  rw [if_neg (Nat.not_lt.mpr range)] at run
  refine ⟨fun t q c waits => ?waiting, fun u depth c c' holds table => ?held, fun u depth g recalled => ?recalled,
    fun k cause spent => ?spent⟩
  case waiting =>
    simp only [waits] at run
    rw [Refuses, run, State.taken_refuseNotHolder waits]
  case held =>
    simp only [holds, State.taken_unit, effectiveDuration_of_table table, Record.target_of_held holds,
      State.loadRecord_answer, State.taken_answer] at run
    exact run
  case recalled =>
    simp only [recalled, State.taken_answer] at run
    exact run
  case spent =>
    simp only [spent, State.taken_answer, Record.lapsedAnswer_of_spent spent] at run
    exact run

/-! ### UPGRADE (R98, R99) -/

/-- A holder that its unit's mark names is the pending upgrade (R26, R99). -/
theorem State.setUnit_mark_pending (s : State) {i : SlotId} {u : UnitId} (holds : s.holding i = some u) :
    ((s.setUnit u { s.unit u with mark := some i }).unit u).mark = some i ∧
      (s.setUnit u { s.unit u with mark := some i }).upgradePending i = true := by
  have mark : ((s.setUnit u { s.unit u with mark := some i }).unit u).mark = some i := by
    rw [State.unit_setUnit_self]
  refine ⟨mark, ?_⟩
  rw [State.upgradePending_of_holding ((s.setUnit_holding u _ i).trans holds), mark, beq_self_eq_true]

section Upgrading

variable {aid : AgentId} {s : State} {i : SlotId} {r : Record} {u : UnitId}

theorem State.clearMarkOf_of_ne (other : (s.unit u).mark ≠ some i) : s.clearMarkOf u i = s :=
  if_neg other

/-- Alone in the holder set, and with no mark to give up, the record becomes EXCLUSIVE in place (R98). -/
theorem State.upgradeShared_of_alone (found : s.record i = some r) (alone : s.holders u = [i])
    (unmarked : (s.unit u).mark = none) :
    s.upgradeShared aid i r u =
      (s.writeRecord i (some { r with mode := .exclusive })).answer aid (.ok r.target.word (place 6 1 1)) := by
  have kept : s.clearMarkOf u i = s := State.clearMarkOf_of_ne (by rw [unmarked]; exact nofun)
  simp only [State.upgradeShared, alone, if_true, kept, State.setMode_of_record found]
  rfl

/-- Beside other holders the record takes the mark where no record has it (R99). -/
theorem State.upgradeShared_of_unmarked (beside : s.holders u ≠ [i]) (unmarked : (s.unit u).mark = none) :
    s.upgradeShared aid i r u =
      (s.setUnit u { s.unit u with mark := some i }).answer aid ⟨.queued, recordWord (s.handle i) r.target, 0⟩ := by
  simp only [State.upgradeShared, if_neg beside, unmarked]

/-- Where the record has the mark already, UPGRADE is QUEUED again (R99). -/
theorem State.upgradeShared_of_pending (beside : s.holders u ≠ [i]) (own : (s.unit u).mark = some i) :
    s.upgradeShared aid i r u = s.answer aid ⟨.queued, recordWord (s.handle i) r.target, 0⟩ := by
  simp only [State.upgradeShared, if_neg beside, own, if_true]

/-- Where another record has the mark, UPGRADE is refused CONFLICT (R99). -/
theorem State.upgradeShared_of_conflict (beside : s.holders u ≠ [i]) {j : SlotId} (other : (s.unit u).mark = some j)
    (apart : j ≠ i) : s.upgradeShared aid i r u = s.answer aid (.refuse Reason.conflict u.val) := by
  simp only [State.upgradeShared, if_neg beside, other, if_neg apart]

end Upgrading

/-- Settles O29: the record's state and mode decide, and on a HELD SHARED record the holder set and the mark. -/
theorem upgrade : Obligations.Upgrade := by
  intro aid s i r ready attached names
  have run := exec_upgrade_names ready attached names
  have found := names.1
  unfold State.upgradeRecord at run
  refine ⟨fun t d c waits => ?waiting, fun u depth g recalled => ?recalled, fun k cause spent => ?spent,
    fun u depth c holds => ⟨fun exclusive => ?exclusive, fun shared => ?shared⟩⟩
  case waiting =>
    simp only [waits] at run
    rw [Refuses, run, State.taken_refuseNotHolder waits]
  case recalled =>
    simp only [recalled, State.taken_answer] at run
    exact run
  case spent =>
    simp only [spent, State.taken_answer, Record.lapsedAnswer_of_spent spent] at run
    exact run
  case exclusive =>
    simp only [holds, exclusive, State.taken_answer] at run
    exact run
  case shared =>
    simp only [holds, shared] at run
    have target := Record.target_of_held holds
    refine ⟨fun alone unmarked => ?alone, fun beside =>
      ⟨fun unmarked => ?unmarked, fun own => ?own, fun j other apart => ?other⟩⟩
    case alone =>
      rw [run, State.upgradeShared_of_alone (s := s.taken aid 0x07) found alone unmarked, State.writeRecord_answer,
        State.taken_answer, target]
    case unmarked =>
      rw [State.upgradeShared_of_unmarked (s := s.taken aid 0x07) beside unmarked, State.setUnit_answer,
        State.taken_answer, target] at run
      exact ⟨_, run, rfl, State.setUnit_mark_pending _
        ((State.holding_of_record found).trans (Record.holding_of_held holds))⟩
    case own =>
      rw [run, State.upgradeShared_of_pending (s := s.taken aid 0x07) beside own, State.taken_answer, target]
      rfl
    case other =>
      rw [Refuses, run, State.upgradeShared_of_conflict (s := s.taken aid 0x07) beside other apart,
        State.taken_answer]

/-! ### CANCEL (R103) -/

/-- Where no upgrade is pending a pass on the unit grants waiters and does nothing else to a record (R74, R77). -/
theorem State.unitPass_grantedOrSame {s : State} {u : UnitId} (unmarked : (s.unit u).mark = none)
    (own : Option SlotId) (j : SlotId) : GrantedOrSame s (s.unitPass own u) j := by
  by_cases opened : (s.unit u).state = .opened
  · obtain ⟨permits, granted⟩ := s.stageB_grantedOrSame own u j
    rw [State.unitPass_of_unmarked opened unmarked]
    split
    · exact granted.trans permits (State.stageC_grantedOrSame _ own u j).2
    · exact granted
  · rw [State.unitPass_of_ne_opened opened]
    exact .inl rfl

/-- What does not wait, no grant changes. -/
theorem GrantedOrSame.record_of_held {s t : State} {j : SlotId} (change : GrantedOrSame s t j) {r : Record}
    {u : UnitId} {d : Nat} {c : Option Nat} (found : s.record j = some r) (holds : r.standing = .held u d c) :
    t.record j = some r := by
  rcases change with same | ⟨q, _, _, _, _, before, waits, _⟩
  · exact same.trans found
  · cases found.symm.trans before
    exact nomatch holds.symm.trans waits

/-- The ALREADY_GRANTED answer about a HELD record (R64). -/
theorem Record.alreadyGrantedAnswer_of_held {r : Record} {u : UnitId} {d : Nat} {c : Option Nat}
    (h : r.standing = .held u d c) :
    r.alreadyGrantedAnswer = ⟨.alreadyGranted, (Target.unit u).word, place 0 3 2⟩ := by
  simp only [Record.alreadyGrantedAnswer, Record.target_of_held h, h, Standing.stateNo]

/-- The ALREADY_GRANTED answer about a RECALLED record (R64). -/
theorem Record.alreadyGrantedAnswer_of_recalled {r : Record} {u : UnitId} {d g : Nat}
    (h : r.standing = .recalled u d g) :
    r.alreadyGrantedAnswer = ⟨.alreadyGranted, (Target.unit u).word, place 0 3 3⟩ := by
  simp only [Record.alreadyGrantedAnswer, Record.target_of_recalled h, h, Standing.stateNo]

/-- The pass that follows a cancelled upgrade sets no mark and leaves the lease as it is (R103). -/
theorem State.cancelledUpgrade {s : State} {i : SlotId} {r : Record} {u : UnitId} {d : Nat} {c : Option Nat}
    (found : s.record i = some r) (holds : r.standing = .held u d c) :
    (((s.clearMark u).unitPass none u).unit u).mark = none ∧
      ((s.clearMark u).unitPass none u).record i = some r := by
  have unmarked : ((s.clearMark u).unit u).mark = none := by rw [State.clearMark_unit, if_pos rfl]
  exact ⟨State.unitPass_mark _ none u u unmarked,
    (State.unitPass_grantedOrSame unmarked none i).record_of_held ((s.clearMark_record u i).trans found) holds⟩

/-- Settles O31: the record's state decides, and of a HELD record whether its unit's mark names it. -/
theorem cancel : Obligations.Cancel := by
  intro aid s i r ready attached names
  have run := exec_cancel_names ready attached names
  have found := names.1
  unfold State.cancelRecord at run
  refine ⟨fun t d c waits => ?waiting, fun u depth c holds => ?held, fun u depth g recalled apart => ?recalled,
    fun k cause spent => ?spent⟩
  case waiting =>
    simp only [waits] at run
    exact run
  case held =>
    have pending : (s.taken aid 0x09).upgradePending i = ((s.unit u).mark == some i) :=
      State.upgradePending_of_holding ((State.holding_of_record found).trans (Record.holding_of_held holds))
    simp only [holds, pending, Record.target_of_held holds] at run
    refine ⟨fun other => ?other, fun marked => ?marked⟩
    case other =>
      rw [beq_eq_false_iff_ne.mpr other, if_neg Bool.false_ne_true, State.taken_answer,
        Record.alreadyGrantedAnswer_of_held holds] at run
      exact run
    case marked =>
      obtain ⟨unmarked, lease⟩ := State.cancelledUpgrade (s := s.taken aid 0x09) found holds
      simp only [marked, beq_self_eq_true, if_true] at run
      refine ⟨_, run, rfl, unmarked, lease, ?_⟩
      rw [State.upgradePending_of_holding ((State.holding_of_record lease).trans (Record.holding_of_held holds)),
        unmarked]
      rfl
  case recalled =>
    simp only [recalled, State.taken_answer, Record.alreadyGrantedAnswer_of_recalled recalled] at run
    exact run
  case spent =>
    simp only [spent, Record.lapsedAnswer_of_spent spent] at run
    exact run

/-! ### What keeps the marks -/

/-- From s, where each mark names a SHARED HELD holder, to t, where each still does: no mark is set, and no holder joins a
unit that has one. -/
def KeepsMarks (s t : State) : Prop :=
  MarkLaw s → MarkLaw t ∧ ∀ u i, (t.unit u).mark = some i →
    (s.unit u).mark = some i ∧ ∀ j, t.holding j = some u → s.holding j = some u

theorem KeepsMarks.refl (s : State) : KeepsMarks s s := fun law => ⟨law, fun _ _ mark => ⟨mark, fun _ held => held⟩⟩

/-- One after another. -/
theorem KeepsMarks.then {s t w : State} (first : KeepsMarks s t) (second : KeepsMarks t w) : KeepsMarks s w := by
  intro law
  obtain ⟨lawT, fromS⟩ := first law
  obtain ⟨lawW, fromT⟩ := second lawT
  refine ⟨lawW, fun u i mark => ?_⟩
  obtain ⟨markT, joinedT⟩ := fromT u i mark
  obtain ⟨markS, joinedS⟩ := fromS u i markT
  exact ⟨markS, fun j held => joinedS j (joinedT j held)⟩

theorem KeepsMarks.foldl {α : Type} (f : State → α → State) (each : ∀ s x, KeepsMarks s (f s x)) (xs : List α)
    (s : State) : KeepsMarks s (xs.foldl f s) := by
  induction xs generalizing s with
  | nil => exact .refl s
  | cons x xs ih => exact (each s x).then (ih _)

/-- Marks are read from the units, and holders from the slots: an answer writes neither. -/
theorem KeepsMarks.answer {s t : State} (h : KeepsMarks s t) (aid : AgentId) (ans : Answer) :
    KeepsMarks s (t.answer aid ans) := h

theorem KeepsMarks.answerControl {s t : State} (h : KeepsMarks s t) (ans : Answer) :
    KeepsMarks s (t.answerControl ans) := h

theorem State.answer_keepsMarks (s : State) (aid : AgentId) (ans : Answer) : KeepsMarks s (s.answer aid ans) :=
  (KeepsMarks.refl s).answer aid ans

theorem State.answerControl_keepsMarks (s : State) (ans : Answer) : KeepsMarks s (s.answerControl ans) :=
  (KeepsMarks.refl s).answerControl ans

/-- The records of pending upgrades stand, and no record but theirs comes to hold a unit with a mark. -/
theorem KeepsMarks.of_records {s t : State} (mark : ∀ u i, (t.unit u).mark = some i → (s.unit u).mark = some i)
    (stands : ∀ u i r, (t.unit u).mark = some i → s.record i = some r → r.isHeldOn u = true → r.mode = .shared →
      ∃ q, t.record i = some q ∧ q.isHeldOn u = true ∧ q.mode = .shared)
    (joined : ∀ u j, (t.unit u).mark ≠ none → t.holding j = some u → s.holding j = some u) : KeepsMarks s t := by
  refine fun law => ⟨fun u i marked => ?_, fun u i marked => ⟨mark u i marked, fun j => joined u j ?_⟩⟩
  · obtain ⟨r, found, holds, shared⟩ := law u i (mark u i marked)
    exact stands u i r marked found holds shared
  · rw [marked]; exact nofun

/-- No record is written, and no mark set. -/
theorem KeepsMarks.of_same {s t : State} (record : ∀ j, t.record j = s.record j)
    (mark : ∀ u i, (t.unit u).mark = some i → (s.unit u).mark = some i) : KeepsMarks s t := by
  refine .of_records mark (fun u i r _ found holds shared => ⟨r, (record i).trans found, holds, shared⟩)
    fun u j _ held => ?_
  rwa [State.holding, record] at held

/-- Without marks there is nothing to keep. -/
theorem KeepsMarks.of_unmarked {s t : State} (unmarked : ∀ u, (t.unit u).mark = none) : KeepsMarks s t := by
  have impossible {u : UnitId} {i : SlotId} (marked : (t.unit u).mark = some i) : False :=
    nomatch (unmarked u).symm.trans marked
  exact fun _ => ⟨fun _ _ marked => (impossible marked).elim, fun _ _ marked => (impossible marked).elim⟩

/-- The record of one slot is written. -/
theorem KeepsMarks.of_write {s t : State} {i : SlotId} {left : Option Record}
    (record : ∀ j, t.record j = if j = i then left else s.record j)
    (mark : ∀ u i, (t.unit u).mark = some i → (s.unit u).mark = some i)
    (stands : ∀ u r, (t.unit u).mark = some i → s.record i = some r → r.isHeldOn u = true → r.mode = .shared →
      ∃ q, left = some q ∧ q.isHeldOn u = true ∧ q.mode = .shared)
    (joined : ∀ u, (t.unit u).mark ≠ none → left.bind Record.holding = some u → s.holding i = some u) :
    KeepsMarks s t := by
  refine .of_records mark (fun u j r marked found holds shared => ?_) fun u j marked held => ?_
  · rw [record]
    split
    · next h => subst h; exact stands u r marked found holds shared
    · exact ⟨r, found, holds, shared⟩
  · rw [State.holding, record] at held
    split at held
    · next h => subst h; exact joined u marked held
    · exact held

/-- The record of slot i takes a standing that is HELD where the old one was, in the old mode. -/
theorem KeepsMarks.of_restanding {s t : State} {i : SlotId} {r : Record} {x : Standing} (found : s.record i = some r)
    (record : ∀ j, t.record j = if j = i then some { r with standing := x } else s.record j)
    (units : ∀ u, t.unit u = s.unit u) (held : ∀ u, Record.isHeldOn { r with standing := x } u = r.isHeldOn u)
    (holding : Record.holding { r with standing := x } = r.holding) : KeepsMarks s t := by
  refine .of_write record (fun u i marked => units u ▸ marked) (fun u q _ before holds shared => ?_) fun u _ after => ?_
  · cases found.symm.trans before
    exact ⟨_, rfl, (held u).trans holds, shared⟩
  · rw [State.holding_of_record found, ← holding]
    exact after

theorem Record.holding_of_isHeldOn {r : Record} {u : UnitId} (holds : r.isHeldOn u = true) : r.holding = some u := by
  obtain ⟨d, c, standing⟩ := (r.isHeldOn_iff u).mp holds
  exact Record.holding_of_held standing

/-- The record of slot i gives up its place, and what is left in the slot holds no other unit. -/
theorem KeepsMarks.of_departure {s t : State} {i : SlotId} {r : Record} (left : Option Record)
    (found : s.record i = some r) (record : ∀ j, t.record j = if j = i then left else s.record j)
    (place : ∀ u, (t.unit u).mark = ((s.leavePlace i r).unit u).mark)
    (holding : ∀ u, left.bind Record.holding = some u → r.holding = some u) : KeepsMarks s t := by
  have given (u : UnitId) : (t.unit u).mark =
      if r.holding = some u ∧ (s.unit u).mark = some i then none else (s.unit u).mark := by
    rw [place, State.leavePlace_unit]
  have mark (u : UnitId) (j : SlotId) (marked : (t.unit u).mark = some j) :
      (s.unit u).mark = some j ∧ ¬ (r.holding = some u ∧ (s.unit u).mark = some i) := by
    rw [given, Option.ite_none_left_eq_some] at marked
    exact marked.symm
  refine .of_write record (fun u j marked => (mark u j marked).1) (fun u q marked before holds _ => ?_)
    fun u _ after => (State.holding_of_record found).trans (holding u after)
  cases found.symm.trans before
  obtain ⟨named, kept⟩ := mark u i marked
  exact absurd ⟨Record.holding_of_isHeldOn holds, named⟩ kept

/-! ### The shared operations -/

theorem State.mem_holders_iff_holding (s : State) (u : UnitId) (j : SlotId) :
    j ∈ s.holders u ↔ s.holding j = some u := by
  simp [State.holders, allSlots]

/-- A unit with a mark has a holder. -/
theorem MarkLaw.unmarked_of_free {s : State} (law : MarkLaw s) {u : UnitId} (free : s.holders u = []) :
    (s.unit u).mark = none := by
  refine Option.eq_none_iff_forall_ne_some.mpr fun i marked => ?_
  obtain ⟨r, found, holds, _⟩ := law u i marked
  have member := (s.mem_holders u i).mpr ⟨r, found, Record.holding_of_isHeldOn holds⟩
  rw [free] at member
  exact nomatch member

/-- A grant gives its unit a holder, so it waits for the mark to go (R100). -/
theorem State.grant_keepsMarks {s : State} (own : Option SlotId) {u : UnitId} {i : SlotId}
    (eligible : s.eligible i u = true) (unmarked : (s.unit u).mark = none ∨ s.holders u = []) :
    KeepsMarks s (s.grant own u i) := by
  intro law
  have noMark : (s.unit u).mark = none := unmarked.elim id law.unmarked_of_free
  obtain ⟨r, t, d, c, found, waits, _⟩ := (s.eligible_iff i u).mp eligible
  refine KeepsMarks.of_write (s.grant_record own u i r t d c found waits)
    (fun v _ marked => s.grant_mark own u i v ▸ marked) (fun v q _ before holds _ => ?_) (fun v marked held => ?_) law
  · cases found.symm.trans before
    simp [Record.isHeldOn, waits] at holds
  · cases held
    exact absurd ((s.grant_mark own u i u).trans noMark) marked

/-- A holder keeps its unit with a new mode; SHARED is what a pending upgrade is, and any other mode is for a record that
has no mark. -/
theorem State.setMode_keepsMarks (s : State) {i : SlotId} {m : Mode}
    (allowed : m = .shared ∨ ∀ u, s.holding i = some u → (s.unit u).mark ≠ some i) : KeepsMarks s (s.setMode i m) := by
  cases found : s.record i with
  | none =>
    have idle : s.setMode i m = s := by simp only [State.setMode, found]
    rw [idle]; exact .refl s
  | some r =>
    rw [State.setMode_of_record found]
    refine .of_write (s.record_writeRecord i _) (fun _ _ marked => marked) (fun u q marked before holds _ => ?_)
      fun u _ held => (State.holding_of_record found).trans held
    cases found.symm.trans before
    rcases allowed with shared | free
    · exact ⟨_, rfl, holds, shared⟩
    · exact absurd marked (free u ((State.holding_of_record found).trans (Record.holding_of_isHeldOn holds)))

theorem State.setUnit_keepsMarks (s : State) {u : UnitId} {x : UnitRecord}
    (mark : ∀ i, x.mark = some i → (s.unit u).mark = some i) : KeepsMarks s (s.setUnit u x) := by
  refine .of_same (fun _ => rfl) fun v i marked => ?_
  rw [State.unit_setUnit] at marked
  split at marked
  · next h => rw [h]; exact mark i marked
  · exact marked

theorem State.clearMark_keepsMarks (s : State) (u : UnitId) : KeepsMarks s (s.clearMark u) :=
  s.setUnit_keepsMarks fun _ => nofun

theorem State.post_keepsMarks (s : State) (k : NoticeKind) (i : SlotId) : KeepsMarks s (s.post k i) :=
  .of_same (s.post_record k i) fun u _ marked => s.post_unit k i u ▸ marked

/-! ### Passes -/

theorem stageBWalk_keepsMarks (own : Option SlotId) (u : UnitId) (is : List SlotId) (s : State) (last : Option AgentId)
    (unmarked : (s.unit u).mark = none) : KeepsMarks s (stageBWalk own u is s last).1 := by
  induction is generalizing s last with
  | nil => exact .refl s
  | cons i is ih =>
    unfold stageBWalk
    split
    · next eligible =>
      split
      · exact (State.grant_keepsMarks own eligible (.inl unmarked)).then
          (ih _ _ ((s.grant_mark own u i u).trans unmarked))
      · exact .refl s
    · exact ih s last unmarked

theorem State.stageB_keepsMarks (s : State) (own : Option SlotId) (u : UnitId) (unmarked : (s.unit u).mark = none) :
    KeepsMarks s (s.stageB own u) := by
  have walk := stageBWalk_keepsMarks own u (s.rank (s.unit u).config.order (s.unit u).bottom (s.unit u).queue) s none
    unmarked
  unfold State.stageB
  dsimp only
  split
  · next ends => rw [ends] at walk; exact walk
  · next ends =>
    rw [ends] at walk
    split
    · exact walk.then (State.setUnit_keepsMarks _ fun _ marked => marked)
    · exact walk

theorem State.stageC_keepsMarks (s : State) (own : Option SlotId) (u : UnitId) (free : s.holders u = []) :
    KeepsMarks s (s.stageC own u) := by
  unfold State.stageC
  split
  · exact .refl s
  · dsimp only
    split
    · exact .refl s
    · next i waiter =>
      have eligible := List.find?_some waiter
      have granted := State.grant_keepsMarks (i := i) own eligible (.inr free)
      split
      · exact granted
      · split
        · exact granted
        · exact granted

/-- A holder that becomes EXCLUSIVE gives up the mark it has (R8, R71, R98). -/
theorem State.upgradeAlone_keepsMarks {s : State} {u : UnitId} {i : SlotId} (holds : s.holding i = some u) :
    KeepsMarks s ((s.clearMarkOf u i).setMode i .exclusive) := by
  have cleared : KeepsMarks s (s.clearMarkOf u i) := by
    unfold State.clearMarkOf
    split
    · exact s.clearMark_keepsMarks u
    · exact .refl s
  refine cleared.then (State.setMode_keepsMarks _ (.inr fun v held => ?_))
  obtain rfl : u = v := Option.some.inj (holds.symm.trans ((s.clearMarkOf_holding u i i).symm.trans held))
  rw [State.clearMarkOf_unit]
  split
  · exact nofun
  · next other => exact fun marked => other ⟨rfl, marked⟩

theorem State.unitPass_keepsMarks (s : State) (own : Option SlotId) (u : UnitId) : KeepsMarks s (s.unitPass own u) := by
  by_cases opened : (s.unit u).state = .opened
  · cases mark : (s.unit u).mark with
    | some i =>
      rw [State.unitPass_of_mark opened mark]
      split
      · next alone =>
        have holds : s.holding i = some u :=
          (s.mem_holders_iff_holding u i).mp (alone ▸ List.mem_singleton_self i)
        have cleared : s.clearMark u = s.clearMarkOf u i := (if_pos mark).symm
        rw [cleared]
        exact (State.upgradeAlone_keepsMarks holds).then (State.post_keepsMarks _ _ _)
      · exact .refl s
    | none =>
      have stageB := s.stageB_keepsMarks own u mark
      rw [State.unitPass_of_unmarked opened mark]
      split
      · next free => exact stageB.then (State.stageC_keepsMarks _ own u free)
      · exact stageB
  · rw [State.unitPass_of_ne_opened opened]
    exact .refl s

theorem State.poolPass_keepsMarks (s : State) (own : Option SlotId) (p : PoolId) : KeepsMarks s (s.poolPass own p) := by
  refine .foldl _ (fun s u => ?_) _ s
  unfold State.offer
  split
  · next offered =>
    obtain ⟨_, _, free⟩ := offered
    exact s.stageC_keepsMarks own u (List.isEmpty_iff.mp free)
  · exact .refl s

theorem State.passOn_keepsMarks (s : State) (own : Option SlotId) (t : Target) : KeepsMarks s (s.passOn own t) := by
  cases t with
  | unit u => exact s.unitPass_keepsMarks own u
  | pool p => exact s.poolPass_keepsMarks own p

theorem State.unitPasses_keepsMarks (s : State) (us : List UnitId) : KeepsMarks s (s.unitPasses us) :=
  .foldl _ (fun s u => s.unitPass_keepsMarks none u) _ s

theorem State.poolPasses_keepsMarks (s : State) (ps : List PoolId) : KeepsMarks s (s.poolPasses ps) :=
  .foldl _ (fun s p => s.poolPass_keepsMarks none p) _ s

/-! ### Departures, recall and time -/

theorem State.completeDrain_keepsMarks (s : State) (u : UnitId) : KeepsMarks s (s.completeDrain u) := by
  refine .of_same (s.completeDrain_record u) fun v i marked => ?_
  rw [State.completeDrain_unit] at marked
  split at marked <;> exact marked

theorem State.endWalk_keepsMarks (s : State) (a : AgentId) : KeepsMarks s (s.endWalk a) :=
  .of_same (s.endWalk_record a) fun u _ marked => s.endWalk_unit a u ▸ marked

theorem State.afterDeparture_keepsMarks (s : State) (r : Record) : KeepsMarks s (s.afterDeparture r) := by
  unfold State.afterDeparture
  split
  · exact s.passOn_keepsMarks none _
  · exact (s.unitPass_keepsMarks none _).then (State.completeDrain_keepsMarks _ _)
  · exact (s.unitPass_keepsMarks none _).then (State.completeDrain_keepsMarks _ _)
  · exact .refl s

theorem State.retire_keepsMarks (s : State) (i : SlotId) : KeepsMarks s (s.retire i) := by
  unfold State.retire
  split
  · exact .refl s
  · next r found =>
    have removed : KeepsMarks s (s.remove i r) :=
      .of_departure none found (s.remove_record i r) (fun u => by rw [State.remove_unit]) fun _ => nofun
    exact removed.then (State.afterDeparture_keepsMarks _ r)

theorem State.spend_keepsMarks (s : State) (i : SlotId) (cause : SpentCause) : KeepsMarks s (s.spend i cause) := by
  unfold State.spend
  split
  · exact .refl s
  · next r found =>
    split
    · have spent : KeepsMarks s (s.markSpent i r cause) :=
        .of_departure _ found (s.markSpent_record i r cause) (fun u => by rw [State.markSpent_unit]) fun _ => nofun
      exact spent.then (State.afterDeparture_keepsMarks _ r)
    · exact s.retire_keepsMarks i

theorem State.markRecalled_keepsMarks {s : State} {i : SlotId} {r : Record} {u : UnitId} {d : Nat} {c : Option Nat}
    (found : s.record i = some r) (holds : r.standing = .held u d c) : KeepsMarks s (s.markRecalled i r u d) := by
  have place : s.leavePlace i r = s.clearMarkOf u i := by rw [State.leavePlace, holds]
  exact .of_departure _ found (s.markRecalled_record i r u d) (fun v => by rw [place, State.markRecalled_unit])
    fun v held => (Record.holding_of_held holds).trans held

theorem State.recall_keepsMarks (s : State) (i : SlotId) : KeepsMarks s (s.recall i) := by
  unfold State.recall
  split
  · exact .refl s
  · next r found =>
    split
    · next u d c holds =>
      have recalled := State.markRecalled_keepsMarks found holds
      split
      · exact s.spend_keepsMarks i .revoked
      · split
        · exact recalled.then (State.unitPass_keepsMarks _ none u)
        · exact recalled
    · exact .refl s
    · exact .refl s
    · exact .refl s

theorem State.recallAll_keepsMarks (s : State) (is : List SlotId) : KeepsMarks s (s.recallAll is) :=
  .foldl _ (fun s i => s.recall_keepsMarks i) _ s

theorem State.withdrawAll_keepsMarks (s : State) (is : List SlotId) : KeepsMarks s (s.withdrawAll is) := by
  refine .foldl _ (fun s i => ?_) _ s
  unfold State.withdraw
  split
  · exact s.spend_keepsMarks i .withdrawn
  · exact .refl s

theorem State.lowerCountdown_keepsMarks (s : State) (i : SlotId) : KeepsMarks s (s.lowerCountdown i) := by
  unfold State.lowerCountdown
  split
  · exact .refl s
  · next r found =>
    split
    · next c cause _ _ =>
      split
      · exact s.spend_keepsMarks i cause
      · refine .of_restanding found (s.record_writeRecord i _) (fun _ => rfl) (fun u => ?_) ?_
        · unfold Record.isHeldOn; cases r.standing <;> rfl
        · unfold Record.holding; cases r.standing <;> rfl
    · exact .refl s

theorem State.arrive_keepsMarks (s : State) (i : SlotId) : KeepsMarks s (s.arrive i) := by
  have arrived : KeepsMarks s (s.arrived i) := .refl s
  unfold State.arrive
  split
  · exact .refl s
  · split
    · exact arrived
    · exact arrived.then (State.lowerCountdown_keepsMarks _ i)

theorem State.clockEdge_keepsMarks (s : State) (tkin : Bool) : KeepsMarks s (s.clockEdge tkin) := by
  unfold State.clockEdge
  dsimp only
  split
  · exact .refl s
  · split <;> exact .refl s
  · split <;> exact .refl s

/-- A walk's start frees SPENT records, which hold nothing (R141). -/
theorem State.beginWalk_keepsMarks (s : State) (a : AgentId) : KeepsMarks s (s.beginWalk a) := by
  refine .of_records (fun u _ marked => s.beginWalk_unit a u ▸ marked) (fun u i r _ found holds shared => ?_)
    fun u j _ held => ?_
  · obtain ⟨d, c, standing⟩ := (r.isHeldOn_iff u).mp holds
    refine ⟨r, ?_, holds, shared⟩
    rw [State.beginWalk_record, found]
    simp [Record.isSpent, standing]
  · rw [State.holding, State.beginWalk_record] at held
    split at held
    · exact nomatch held
    · exact held

/-! ### Requests -/

/-- A new record takes a FREE slot and waits: it holds nothing. -/
theorem Allocation.keepsMarks {s t : State} (new : Allocation s t) : KeepsMarks s t := by
  obtain ⟨i, a, mode, x, requested, waitLimit, free⟩ := new
  refine .of_write (s.allocate_record i a mode x requested waitLimit) (fun u j marked => ?_)
    (fun _ _ _ found => nomatch free.symm.trans found) fun _ _ => nofun
  rw [State.allocate_unit] at marked
  split at marked <;> exact marked

theorem State.answerRequest_keepsMarks (s : State) (aid : AgentId) (i : SlotId) (t : Target) (w : Nat) :
    KeepsMarks s (s.answerRequest aid i t w) := by
  unfold State.answerRequest
  split
  · exact s.answer_keepsMarks _ _
  · split
    · exact s.answer_keepsMarks _ _
    · split
      · exact (s.retire_keepsMarks i).answer _ _
      · exact s.answer_keepsMarks _ _

/-- A HELD record at another depth, and with another countdown, holds what it held. -/
theorem KeepsMarks.of_reheld {s t : State} {i : SlotId} {r : Record} {u : UnitId} {d d' : Nat} {c c' : Option Nat}
    (found : s.record i = some r) (holds : r.standing = .held u d c)
    (record : ∀ j, t.record j = if j = i then some { r with standing := .held u d' c' } else s.record j)
    (units : ∀ u, t.unit u = s.unit u) : KeepsMarks s t :=
  .of_restanding found record units (fun v => by simp [Record.isHeldOn, holds]) (by simp [Record.holding, holds])

theorem State.deepen_keepsMarks (s : State) (i : SlotId) : KeepsMarks s (s.deepen i) := by
  unfold State.deepen
  split
  · exact .refl s
  · next r found =>
    split
    · next u d c holds => exact .of_reheld found holds (s.record_writeRecord i _) fun _ => rfl
    · exact .refl s
    · exact .refl s
    · exact .refl s

theorem State.takeRequest_keepsMarks (s : State) (aid : AgentId) (c : RequestCase)
    (create : ∀ i m t d w, c = .create i m t d w → Allocation s (s.allocate i aid m t d w)) :
    KeepsMarks s (s.takeRequest aid c) := by
  unfold State.takeRequest
  split
  · exact s.answer_keepsMarks _ _
  · next i =>
    dsimp only
    split
    · exact s.deepen_keepsMarks i
    · exact (s.deepen_keepsMarks i).answer _ _
  · next i m t d w =>
    exact ((create i m t d w rfl).keepsMarks.then (State.passOn_keepsMarks _ _ _)).then
      (State.answerRequest_keepsMarks _ _ _ _ _)
/-! ### What a command does to pending upgrades -/

/-- The marks of t name SHARED HELD holders if those of s do, and no SHARED holder has joined a unit that has a mark in
both (R100). -/
def PendingKept (s t : State) : Prop :=
  MarkLaw s → MarkLaw t ∧
    ∀ u, (s.unit u).mark ≠ none → (t.unit u).mark ≠ none → ∀ j, j ∈ t.holders u → t.isShared j = true → j ∈ s.holders u

/-- Where no mark is set, a mark at the end stood throughout, and no holder joined. -/
theorem KeepsMarks.pendingKept {s t : State} (h : KeepsMarks s t) : PendingKept s t := by
  intro law
  obtain ⟨lawT, stood⟩ := h law
  refine ⟨lawT, fun u _ after j held _ => ?_⟩
  obtain ⟨i, marked⟩ := Option.ne_none_iff_exists'.mp after
  obtain ⟨_, joined⟩ := stood u i marked
  rw [State.mem_holders_iff_holding] at held ⊢
  exact joined j held

theorem PendingKept.refl (s : State) : PendingKept s s := (KeepsMarks.refl s).pendingKept

/-- An UPGRADE that takes the mark adds no holder (R99). -/
theorem State.setMark_pendingKept {s : State} {u : UnitId} {i : SlotId} {r : Record} (found : s.record i = some r)
    (holds : r.isHeldOn u = true) (shared : r.mode = .shared) :
    PendingKept s (s.setUnit u { s.unit u with mark := some i }) := by
  refine fun law => ⟨fun v j marked => ?_, fun v _ _ j held _ => held⟩
  rw [State.unit_setUnit] at marked
  split at marked
  · next same => cases marked; subst same; exact ⟨r, found, holds, shared⟩
  · exact law v j marked

theorem State.upgradeShared_pendingKept {s : State} {i : SlotId} {r : Record} {u : UnitId} (aid : AgentId)
    (found : s.record i = some r) (holds : r.isHeldOn u = true) (shared : r.mode = .shared) :
    PendingKept s (s.upgradeShared aid i r u) := by
  unfold State.upgradeShared
  dsimp only
  split
  · have held : s.holding i = some u := (State.holding_of_record found).trans (Record.holding_of_isHeldOn holds)
    exact ((State.upgradeAlone_keepsMarks held).answer _ _).pendingKept
  · split
    · exact State.setMark_pendingKept found holds shared
    · split <;> exact PendingKept.refl s

/-- Every next state of a result keeps the pending upgrades of s. -/
def Result.KeepsPending (s : State) (r : Result) : Prop := ∀ t, r = .next t → PendingKept s t

theorem Result.KeepsPending.of_next {s t : State} (h : PendingKept s t) : Result.KeepsPending s (.next t) := by
  rintro _ ⟨⟩
  exact h

/-- What a station does before and around a command touches no unit and no slot. -/
theorem atAgentStation_keepsPending {code : Word} {aid : AgentId} {body : State → State}
    (h : ∀ s, PendingKept s (body s)) (s : State) : Result.KeepsPending s (atAgentStation code aid body s) := by
  unfold atAgentStation
  dsimp only
  split
  · exact .of_next (.refl s)
  · exact .of_next (h (s.taken aid code))

theorem atControlStation_keepsPending {code : Word} {aid : AgentId} {body : State → State}
    (h : ∀ s, KeepsMarks s (body s)) (s : State) : Result.KeepsPending s (atControlStation code aid body s) := by
  unfold atControlStation
  dsimp only
  split
  · exact .of_next (.refl s)
  · split
    · exact .of_next (h (s.takenControl code)).pendingKept
    · exact .of_next (.refl s)

theorem asEvent_keepsPending {body : State → State} (h : ∀ s, KeepsMarks s (body s)) (s : State) :
    Result.KeepsPending s (asEvent body s) := by
  unfold asEvent
  dsimp only
  split
  · exact .of_next (.refl s)
  · exact .of_next (h s.quiet).pendingKept

/-- A command that names a record by handle answers, or runs on a record that stands in its slot (R33). -/
theorem State.withHandle_cases {P : State → Prop} {s : State} {aid : AgentId} {body : SlotId → Record → State}
    (answer : ∀ ans, P (s.answer aid ans)) (run : ∀ i r, s.record i = some r → P (body i r)) :
    P (s.withHandle aid body) := by
  unfold State.withHandle
  split
  · exact answer _
  · split
    · exact answer _
    · next i r checked => exact run i r (State.names_of_checkHandle checked).1

theorem State.onAttachedAgent_keepsMarks {s : State} {body : AgentId → State} (h : ∀ a, KeepsMarks s (body a)) :
    KeepsMarks s (s.onAttachedAgent body) := by
  unfold State.onAttachedAgent
  split
  · exact s.answerControl_keepsMarks _
  · split
    · exact s.answerControl_keepsMarks _
    · exact s.answerControl_keepsMarks _
    · exact h _

/-! ### Commands of an agent station -/

section AgentCommands

variable (aid : AgentId) (s : State)

/-- A command at an agent station that sets no mark. -/
theorem atAgentStation_keepsMarks {code : Word} {body : State → State} (h : ∀ s, KeepsMarks s (body s)) :
    Result.KeepsPending s (atAgentStation code aid body s) :=
  atAgentStation_keepsPending (fun s => (h s).pendingKept) s

/-- A command that names a record by handle and sets no mark. -/
theorem withHandle_keepsMarks {code : Word} {body : State → SlotId → Record → State}
    (h : ∀ s i r, s.record i = some r → KeepsMarks s (body s i r)) :
    Result.KeepsPending s (atAgentStation code aid (fun s => s.withHandle aid (body s)) s) :=
  atAgentStation_keepsMarks aid s fun s => State.withHandle_cases (P := KeepsMarks s) (s.answer_keepsMarks aid) (h s)

theorem execAttach_keepsPending : Result.KeepsPending s (execAttach aid s) := by
  refine atAgentStation_keepsMarks aid s fun s => ?_
  dsimp only
  split
  · exact s.answer_keepsMarks _ _
  · exact s.answer_keepsMarks _ _
  · split
    · exact s.answer_keepsMarks _ _
    · exact .of_same (fun _ => rfl) fun _ _ marked => marked

theorem execDetach_keepsPending : Result.KeepsPending s (execDetach aid s) := by
  refine atAgentStation_keepsMarks aid s fun s => ?_
  split
  · exact s.beginWalk_keepsMarks aid
  · exact s.answer_keepsMarks _ _

theorem execAcquire_keepsPending : Result.KeepsPending s (execAcquire aid s) :=
  atAgentStation_keepsMarks aid s fun s => s.takeRequest_keepsMarks aid _ fun i m t d w => s.acquireCase_create aid m t d w i

theorem execAcquireAny_keepsPending : Result.KeepsPending s (execAcquireAny aid s) :=
  atAgentStation_keepsMarks aid s fun s => s.takeRequest_keepsMarks aid _ fun i m t d w => s.acquireAnyCase_create aid m t d w i

theorem execRelease_keepsPending : Result.KeepsPending s (execRelease aid s) := by
  refine withHandle_keepsMarks aid s fun s i r found => ?_
  have retired (ans : Answer) : KeepsMarks s ((s.retire i).answer aid ans) := (s.retire_keepsMarks i).answer aid ans
  unfold State.releaseRecord
  split
  · exact s.answer_keepsMarks _ _
  · next full _ =>
    dsimp only
    split
    · exact s.answer_keepsMarks _ _
    · next u d c holds =>
      by_cases ended : (if full = true then 0 else d - 1) = 0
      · rw [if_pos ended]
        exact retired _
      · rw [if_neg ended]
        exact KeepsMarks.of_reheld found holds (s.record_writeRecord i _) fun _ => rfl
    · exact retired _
    · exact retired _

theorem execRenew_keepsPending : Result.KeepsPending s (execRenew aid s) := by
  refine withHandle_keepsMarks aid s fun s i r found => ?_
  unfold State.renewRecord
  dsimp only
  split
  · exact s.answer_keepsMarks _ _
  · split
    · exact s.answer_keepsMarks _ _
    · next u d c holds => exact KeepsMarks.of_reheld found holds (s.record_loadRecord i _) fun _ => rfl
    · exact s.answer_keepsMarks _ _
    · exact s.answer_keepsMarks _ _

/-- The one command that sets a mark. -/
theorem execUpgrade_keepsPending : Result.KeepsPending s (execUpgrade aid s) := by
  refine atAgentStation_keepsPending (fun s => ?_) s
  have answered (ans : Answer) : PendingKept s (s.answer aid ans) := (s.answer_keepsMarks aid ans).pendingKept
  refine State.withHandle_cases (P := PendingKept s) answered fun i r found => ?_
  unfold State.upgradeRecord
  split
  · exact answered _
  · next u d c holds =>
    split
    · exact answered _
    · next shared => exact State.upgradeShared_pendingKept aid found (Record.isHeldOn_of holds) shared
  · exact answered _
  · exact answered _

theorem execDowngrade_keepsPending : Result.KeepsPending s (execDowngrade aid s) := by
  refine withHandle_keepsMarks aid s fun s i r found => ?_
  unfold State.downgradeRecord
  split
  · exact s.answer_keepsMarks _ _
  · next u d c holds =>
    split
    · exact s.answer_keepsMarks _ _
    · split
      · exact s.answer_keepsMarks _ _
      · exact ((s.setMode_keepsMarks (.inl rfl)).then (State.unitPass_keepsMarks _ none u)).answer _ _
  · exact s.answer_keepsMarks _ _
  · exact s.answer_keepsMarks _ _

theorem execCancel_keepsPending : Result.KeepsPending s (execCancel aid s) := by
  refine withHandle_keepsMarks aid s fun s i r found => ?_
  unfold State.cancelRecord
  split
  · exact (s.retire_keepsMarks i).answer _ _
  · next u d c holds =>
    split
    · exact ((s.clearMark_keepsMarks u).then (State.unitPass_keepsMarks _ none u)).answer _ _
    · exact s.answer_keepsMarks _ _
  · exact s.answer_keepsMarks _ _
  · exact (s.retire_keepsMarks i).answer _ _

theorem execQueryLease_keepsPending : Result.KeepsPending s (execQueryLease aid s) :=
  withHandle_keepsMarks aid s fun s _ _ _ => s.answer_keepsMarks _ _

theorem State.readUnit_keepsMarks (answer : UnitId → Answer) : KeepsMarks s (s.readUnit aid answer) := by
  unfold State.readUnit
  split
  · exact s.answer_keepsMarks _ _
  · split <;> exact s.answer_keepsMarks _ _

theorem execNextNotice_keepsPending : Result.KeepsPending s (execNextNotice aid s) := by
  refine atAgentStation_keepsMarks aid s fun s => ?_
  split
  · exact s.answer_keepsMarks _ _
  · split
    · exact s.answer_keepsMarks _ _
    · next n rest _ =>
      have read : KeepsMarks s (s.setNotice aid { s.notice aid with entries := rest }) := .refl s
      unfold State.readNotice
      refine KeepsMarks.answer ?_ _ _
      split
      · exact read.then (State.retire_keepsMarks _ _)
      · exact read

theorem execSetAttention_keepsPending : Result.KeepsPending s (execSetAttention aid s) := by
  refine atAgentStation_keepsMarks aid s fun s => ?_
  split
  · exact s.answer_keepsMarks _ _
  · split
    · exact s.answer_keepsMarks _ _
    · exact .of_same (fun _ => rfl) fun _ _ marked => marked

theorem execQueryUnit_keepsPending : Result.KeepsPending s (execQueryUnit aid s) :=
  atAgentStation_keepsMarks aid s fun s => s.readUnit_keepsMarks aid _

theorem execProbe_keepsPending : Result.KeepsPending s (execProbe aid s) :=
  atAgentStation_keepsMarks aid s fun s => s.readUnit_keepsMarks aid _

/-- A write of CMD at an agent station. -/
theorem takeAgentCode_keepsPending (code : Nat) : Result.KeepsPending s (takeAgentCode aid code s) := by
  unfold takeAgentCode
  split
  · exact execAttach_keepsPending aid s
  · exact execDetach_keepsPending aid s
  · exact execAcquire_keepsPending aid s
  · exact execAcquireAny_keepsPending aid s
  · exact execRelease_keepsPending aid s
  · exact execRenew_keepsPending aid s
  · exact execUpgrade_keepsPending aid s
  · exact execDowngrade_keepsPending aid s
  · exact execCancel_keepsPending aid s
  · exact execQueryLease_keepsPending aid s
  · exact execQueryUnit_keepsPending aid s
  · exact execProbe_keepsPending aid s
  · exact execNextNotice_keepsPending aid s
  · exact execSetAttention_keepsPending aid s
  · exact atAgentStation_keepsMarks aid s fun s => s.answer_keepsMarks aid _

end AgentCommands

/-! ### Commands of the control station -/

section ControlCommands

variable (aid : AgentId) (s : State)

/-- Only the configuration of an OFFLINE unit is written (R12). -/
theorem execConfigureUnit_keepsPending : Result.KeepsPending s (execConfigureUnit aid s) := by
  refine atControlStation_keepsPending (fun s => ?_) s
  split
  · exact s.answerControl_keepsMarks _
  · split
    · exact s.answerControl_keepsMarks _
    · split
      · exact s.answerControl_keepsMarks _
      · split
        · exact s.answerControl_keepsMarks _
        · split
          · exact s.answerControl_keepsMarks _
          · refine KeepsMarks.answerControl (s.setUnit_keepsMarks ?_) _
            exact fun _ marked => marked

theorem execConfigurePool_keepsPending : Result.KeepsPending s (execConfigurePool aid s) := by
  refine atControlStation_keepsPending (fun s => ?_) s
  split
  · exact s.answerControl_keepsMarks _
  · split
    · exact s.answerControl_keepsMarks _
    · split
      · exact s.answerControl_keepsMarks _
      · split
        · exact s.answerControl_keepsMarks _
        · exact .of_same (fun _ => rfl) fun _ _ marked => marked

theorem State.setCeiling_keepsMarks (c : Nat) : KeepsMarks s (s.setCeiling c) := by
  have written : KeepsMarks s { s with ceiling := c } := .refl s
  unfold State.setCeiling
  split
  · exact ((written.then (State.unitPasses_keepsMarks _ _)).then (State.poolPasses_keepsMarks _ _)).answerControl _
  · split
    · exact s.answerControl_keepsMarks _
    · exact written.answerControl _

theorem execSetBand_keepsPending : Result.KeepsPending s (execSetBand aid s) := by
  refine atControlStation_keepsPending (fun s => ?_) s
  dsimp only
  split
  · exact s.answerControl_keepsMarks _
  · split
    · exact s.answerControl_keepsMarks _
    · exact s.setCeiling_keepsMarks _

theorem State.writeClearance_keepsMarks (a : AgentId) (yes : Bool) : KeepsMarks s (s.writeClearance a yes) := by
  have written : KeepsMarks s (s.setAgent a { s.agent a with clearance := yes }) := .refl s
  unfold State.writeClearance
  dsimp only
  split
  · exact s.answerControl_keepsMarks _
  · split
    · exact (written.then (State.poolPasses_keepsMarks _ _)).answerControl _
    · split
      · exact s.answerControl_keepsMarks _
      · exact written.answerControl _

theorem execSetClearance_keepsPending : Result.KeepsPending s (execSetClearance aid s) := by
  refine atControlStation_keepsPending (fun s => ?_) s
  split
  · exact s.answerControl_keepsMarks _
  · split
    · exact s.answerControl_keepsMarks _
    · split
      · exact s.answerControl_keepsMarks _
      · split
        · exact s.answerControl_keepsMarks _
        · exact s.writeClearance_keepsMarks _ _

theorem execSetQuota_keepsPending : Result.KeepsPending s (execSetQuota aid s) := by
  refine atControlStation_keepsPending (fun s => ?_) s
  split
  · exact s.answerControl_keepsMarks _
  · split
    · exact s.answerControl_keepsMarks _
    · dsimp only
      split
      · exact s.answerControl_keepsMarks _
      · split
        · exact s.answerControl_keepsMarks _
        · exact .of_same (fun _ => rfl) fun _ _ marked => marked

theorem execSetTick_keepsPending : Result.KeepsPending s (execSetTick aid s) := by
  refine atControlStation_keepsPending (fun s => ?_) s
  split
  · exact s.answerControl_keepsMarks _
  · split
    · exact s.answerControl_keepsMarks _
    · exact .of_same (fun _ => rfl) fun _ _ marked => marked

/-- OPEN_UNIT and RESTORE_UNIT: a pass follows the unit's new state (R13, R163). -/
theorem State.openAndPass_keepsMarks (u : UnitId) :
    KeepsMarks s ((s.setUnit u { s.unit u with state := .opened }).unitPass none u) := by
  have opened : KeepsMarks s (s.setUnit u { s.unit u with state := .opened }) :=
    s.setUnit_keepsMarks fun _ marked => marked
  exact opened.then (State.unitPass_keepsMarks _ none u)

theorem execOpenUnit_keepsPending : Result.KeepsPending s (execOpenUnit aid s) := by
  refine atControlStation_keepsPending (fun s => ?_) s
  split
  · exact s.answerControl_keepsMarks _
  · split
    · exact s.answerControl_keepsMarks _
    · exact (s.openAndPass_keepsMarks _).answerControl _

theorem execRestoreUnit_keepsPending : Result.KeepsPending s (execRestoreUnit aid s) := by
  refine atControlStation_keepsPending (fun s => ?_) s
  split
  · exact s.answerControl_keepsMarks _
  · split
    · exact (s.openAndPass_keepsMarks _).answerControl _
    · exact s.answerControl_keepsMarks _

theorem State.drain_keepsMarks (u : UnitId) : KeepsMarks s (s.drain u) := by
  have started : KeepsMarks s (s.setUnit u { s.unit u with state := .draining, mark := none }) :=
    s.setUnit_keepsMarks fun _ => nofun
  exact (((started.then (State.withdrawAll_keepsMarks _ _)).then (State.recallAll_keepsMarks _ _)).then
    (State.completeDrain_keepsMarks _ u)).answerControl _

theorem execDrainUnit_keepsPending : Result.KeepsPending s (execDrainUnit aid s) := by
  refine atControlStation_keepsPending (fun s => ?_) s
  split
  · exact s.answerControl_keepsMarks _
  · split
    · exact s.drain_keepsMarks _
    · exact s.answerControl_keepsMarks _

theorem execRecallLease_keepsPending : Result.KeepsPending s (execRecallLease aid s) := by
  refine atControlStation_keepsPending (fun s => ?_) s
  split
  · exact s.answerControl_keepsMarks _
  · split
    · exact s.answerControl_keepsMarks _
    · unfold State.recallRecord
      dsimp only
      split
      · exact s.answerControl_keepsMarks _
      · exact s.answerControl_keepsMarks _
      · exact (s.recall_keepsMarks _).answerControl _
      · exact s.answerControl_keepsMarks _

theorem execRecallUnit_keepsPending : Result.KeepsPending s (execRecallUnit aid s) := by
  refine atControlStation_keepsPending (fun s => ?_) s
  split
  · exact s.answerControl_keepsMarks _
  · exact (s.recallAll_keepsMarks _).answerControl _

theorem execHoldAgent_keepsPending : Result.KeepsPending s (execHoldAgent aid s) := by
  refine atControlStation_keepsPending (fun s => State.onAttachedAgent_keepsMarks fun a => ?_) s
  have written : KeepsMarks s (s.setAgent a { s.agent a with held := true }) := .refl s
  split
  · exact s.answerControl_keepsMarks _
  · exact (written.then (State.unitPasses_keepsMarks _ _)).answerControl _

theorem execResumeAgent_keepsPending : Result.KeepsPending s (execResumeAgent aid s) := by
  refine atControlStation_keepsPending (fun s => State.onAttachedAgent_keepsMarks fun a => ?_) s
  have written : KeepsMarks s (s.setAgent a { s.agent a with held := false }) := .refl s
  split
  · exact ((written.then (State.unitPasses_keepsMarks _ _)).then (State.poolPasses_keepsMarks _ _)).answerControl _
  · exact s.answerControl_keepsMarks _

theorem execDetachAgent_keepsPending : Result.KeepsPending s (execDetachAgent aid s) := by
  refine atControlStation_keepsPending (fun s => State.onAttachedAgent_keepsMarks fun a => ?_) s
  have written : KeepsMarks s (s.setStation a { s.station a with cmd := 0 }) := .refl s
  exact (written.then (State.beginWalk_keepsMarks _ a)).answerControl _

theorem State.setBottomOf_keepsMarks (t : Target) : KeepsMarks s (s.setBottomOf t) := by
  unfold State.setBottomOf
  split
  · exact s.answerControl_keepsMarks _
  · next a _ =>
    have written : KeepsMarks s (s.writeBottom t a) := by
      cases t with
      | unit u => exact s.setUnit_keepsMarks fun _ marked => marked
      | pool p => exact .refl s
    exact (written.then (State.passOn_keepsMarks _ _ _)).answerControl _

theorem execSetBottom_keepsPending : Result.KeepsPending s (execSetBottom aid s) := by
  refine atControlStation_keepsPending (fun s => ?_) s
  dsimp only
  split
  · exact s.answerControl_keepsMarks _
  · split
    · exact s.answerControl_keepsMarks _
    · exact s.setBottomOf_keepsMarks _
  · split
    · exact s.answerControl_keepsMarks _
    · exact s.setBottomOf_keepsMarks _

/-- RESET_LIVE clears every mark (R19). -/
theorem execResetLive_keepsPending : Result.KeepsPending s (execResetLive aid s) := by
  refine atControlStation_keepsPending (fun s => KeepsMarks.answerControl (.of_unmarked fun u => ?_) _) s
  rw [State.cleared_unit]

theorem execReadCompletions_keepsPending : Result.KeepsPending s (execReadCompletions aid s) := by
  refine atControlStation_keepsPending (fun s => ?_) s
  split
  · exact s.answerControl_keepsMarks _
  · exact .of_same (fun _ => rfl) fun _ _ marked => marked

theorem execSetControlAttention_keepsPending : Result.KeepsPending s (execSetControlAttention aid s) := by
  refine atControlStation_keepsPending (fun s => ?_) s
  split
  · exact s.answerControl_keepsMarks _
  · exact .of_same (fun _ => rfl) fun _ _ marked => marked

theorem execFreeze_keepsPending : Result.KeepsPending s (execFreeze aid s) := by
  refine atControlStation_keepsPending (fun s => ?_) s
  exact .of_same (fun _ => rfl) fun _ _ marked => marked

theorem execInspectRecord_keepsPending : Result.KeepsPending s (execInspectRecord aid s) := by
  refine atControlStation_keepsPending (fun s => ?_) s
  split <;> exact s.answerControl_keepsMarks _

theorem execListHolder_keepsPending : Result.KeepsPending s (execListHolder aid s) := by
  refine atControlStation_keepsPending (fun s => ?_) s
  split
  · exact s.answerControl_keepsMarks _
  · dsimp only
    split <;> exact s.answerControl_keepsMarks _

/-- A write of CMD in the control window. -/
theorem takeControlCode_keepsPending (code : Nat) : Result.KeepsPending s (takeControlCode aid code s) := by
  unfold takeControlCode
  split
  · exact execConfigureUnit_keepsPending aid s
  · exact execConfigurePool_keepsPending aid s
  · exact execSetBand_keepsPending aid s
  · exact execSetClearance_keepsPending aid s
  · exact execSetQuota_keepsPending aid s
  · exact execSetTick_keepsPending aid s
  · exact execOpenUnit_keepsPending aid s
  · exact execDrainUnit_keepsPending aid s
  · exact execRestoreUnit_keepsPending aid s
  · exact execRecallLease_keepsPending aid s
  · exact execRecallUnit_keepsPending aid s
  · exact execHoldAgent_keepsPending aid s
  · exact execResumeAgent_keepsPending aid s
  · exact execDetachAgent_keepsPending aid s
  · exact execSetBottom_keepsPending aid s
  · exact execFreeze_keepsPending aid s
  · exact execResetLive_keepsPending aid s
  · exact execReadCompletions_keepsPending aid s
  · exact execSetControlAttention_keepsPending aid s
  · exact execInspectRecord_keepsPending aid s
  · exact execListHolder_keepsPending aid s
  · exact atControlStation_keepsPending (fun s => s.answerControl_keepsMarks _) s

end ControlCommands

/-! ### The other bus accesses, the events, and the step -/

section Steps

variable (aid : AgentId) (s : State)

/-- A write to another word than CMD touches stations and the port alone (R170, R171). -/
theorem storeWord_keepsPending (offset : WordOffset) (data : Word) :
    Result.KeepsPending s (storeWord aid offset data s) := by
  unfold storeWord
  dsimp only
  split
  · exact .of_next (.refl s)
  split
  · split <;> exact .of_next (.refl s)
  split
  · split <;> exact .of_next (.refl s)
  · exact .of_next (.refl s)

theorem takeCode_keepsPending (window : Window) (data : Word) :
    Result.KeepsPending s (takeCode window aid data s) := by
  cases window with
  | agent => exact takeAgentCode_keepsPending aid s _
  | control => exact takeControlCode_keepsPending aid s _

theorem portWrite_keepsPending (offset : WordOffset) (data : Word) :
    Result.KeepsPending s (portWrite aid offset data s) := by
  unfold portWrite
  split
  · exact takeCode_keepsPending aid s .agent data
  · split
    · exact takeCode_keepsPending aid s .control data
    · exact storeWord_keepsPending aid s offset data

theorem execControlWindowRefused_keepsPending (offset : WordOffset) (access : Access) :
    Result.KeepsPending s (execControlWindowRefused aid offset access s) := by
  cases access with
  | read => exact .of_next (.refl s)
  | write data => exact portWrite_keepsPending aid s offset data

/-- TICK_ARRIVAL and the three expiries: the arrival, where it is due (R111, R113 to R115). -/
theorem State.arriveIf_keepsMarks (i : SlotId) (due : Bool) : KeepsMarks s (if due then s.arrive i else s) := by
  split
  · exact s.arrive_keepsMarks i
  · exact .refl s

theorem execTick_keepsPending : Result.KeepsPending s (execTick s) := by
  refine asEvent_keepsPending (fun s => ?_) s
  split
  · exact s.clockEdge_keepsMarks true
  · exact .refl s

theorem execWithdrawalStep_keepsPending (a : AgentId) : Result.KeepsPending s (execWithdrawalStep a s) := by
  refine asEvent_keepsPending (fun s => ?_) s
  split
  · split
    · exact .refl s
    · exact s.retire_keepsMarks _
  · exact .refl s

theorem execHoldingStep_keepsPending (a : AgentId) : Result.KeepsPending s (execHoldingStep a s) := by
  refine asEvent_keepsPending (fun s => ?_) s
  split
  · split
    · exact .refl s
    · exact s.retire_keepsMarks _
  · exact .refl s

/-- UPGRADE alone sets a mark, and every other command and event is made of what keeps the marks. -/
theorem exec_keepsPending (c : Instr) : Result.KeepsPending s (exec c s) := by
  cases c with
  | attach aid => exact execAttach_keepsPending aid s
  | detach aid => exact execDetach_keepsPending aid s
  | acquire aid => exact execAcquire_keepsPending aid s
  | acquireAny aid => exact execAcquireAny_keepsPending aid s
  | release aid => exact execRelease_keepsPending aid s
  | renew aid => exact execRenew_keepsPending aid s
  | upgrade aid => exact execUpgrade_keepsPending aid s
  | downgrade aid => exact execDowngrade_keepsPending aid s
  | cancel aid => exact execCancel_keepsPending aid s
  | queryLease aid => exact execQueryLease_keepsPending aid s
  | queryUnit aid => exact execQueryUnit_keepsPending aid s
  | probe aid => exact execProbe_keepsPending aid s
  | nextNotice aid => exact execNextNotice_keepsPending aid s
  | setAttention aid => exact execSetAttention_keepsPending aid s
  | configureUnit aid => exact execConfigureUnit_keepsPending aid s
  | configurePool aid => exact execConfigurePool_keepsPending aid s
  | setBand aid => exact execSetBand_keepsPending aid s
  | setClearance aid => exact execSetClearance_keepsPending aid s
  | setQuota aid => exact execSetQuota_keepsPending aid s
  | setTick aid => exact execSetTick_keepsPending aid s
  | openUnit aid => exact execOpenUnit_keepsPending aid s
  | drainUnit aid => exact execDrainUnit_keepsPending aid s
  | restoreUnit aid => exact execRestoreUnit_keepsPending aid s
  | recallLease aid => exact execRecallLease_keepsPending aid s
  | recallUnit aid => exact execRecallUnit_keepsPending aid s
  | holdAgent aid => exact execHoldAgent_keepsPending aid s
  | resumeAgent aid => exact execResumeAgent_keepsPending aid s
  | detachAgent aid => exact execDetachAgent_keepsPending aid s
  | setBottom aid => exact execSetBottom_keepsPending aid s
  | freeze aid => exact execFreeze_keepsPending aid s
  | resetLive aid => exact execResetLive_keepsPending aid s
  | readCompletions aid => exact execReadCompletions_keepsPending aid s
  | setControlAttention aid => exact execSetControlAttention_keepsPending aid s
  | inspectRecord aid => exact execInspectRecord_keepsPending aid s
  | listHolder aid => exact execListHolder_keepsPending aid s
  | undefinedCommand aid window data => exact takeCode_keepsPending aid s window data
  | argumentWrite aid offset data => exact portWrite_keepsPending aid s offset data
  | busyStationWrite aid offset data => exact portWrite_keepsPending aid s offset data
  | controlWindowRefused aid offset access => exact execControlWindowRefused_keepsPending aid s offset access
  | hardwareReset =>
    have reset : KeepsMarks s s.hardwareReset := .of_unmarked fun u => by rw [State.hardwareReset_unit]
    exact .of_next reset.pendingKept
  | powerOn straps =>
    have fresh : KeepsMarks s { State.afterPowerOn straps with inReset := s.inReset, pending := s.pending } :=
      .of_unmarked fun u => congrArg UnitRecord.mark (State.afterPowerOn_unit straps u)
    exact .of_next fresh.pendingKept
  | tick => exact execTick_keepsPending s
  | tickArrival i => exact asEvent_keepsPending (fun s => s.arrive_keepsMarks i) s
  | leaseExpiry i => exact asEvent_keepsPending (fun s => s.arriveIf_keepsMarks i _) s
  | waitTimeout i => exact asEvent_keepsPending (fun s => s.arriveIf_keepsMarks i _) s
  | graceExpiry i => exact asEvent_keepsPending (fun s => s.arriveIf_keepsMarks i _) s
  | withdrawalStep a => exact execWithdrawalStep_keepsPending s a
  | holdingStep a => exact execHoldingStep_keepsPending s a
  | walkEnd a => exact asEvent_keepsPending (fun s => s.endWalk_keepsMarks a) s
  | drainCompletion u => exact asEvent_keepsPending (fun s => s.completeDrain_keepsMarks u) s
  | clkRisingEdge tkin => exact asEvent_keepsPending (fun s => s.clockEdge_keepsMarks tkin) s
  | hardwareResetRelease => exact .of_next (.refl s)

end Steps

/-- Settles O52: no operation but UPGRADE sets a mark, a grant waits for it to go, and what ends or converts the record
clears it. -/
theorem pendingUpgradeKept : Obligations.PendingUpgradeKept := by
  intro s t law run
  unfold step at run
  split at run
  · cases run; exact PendingKept.refl s law
  · next c rest _ => exact exec_keepsPending { s with pending := rest } c t run law

end Sys2Proof.Machine
end

section
/-! SUPPORT. Notice queues (R126): what a notice reports of a record, what a post and a withdrawal make of the entries,
that the quotas are kept and bound the queues, and the statement that every step keeps the notice queues. -/

namespace Sys2Proof.Machine

/-! ### Reports -/

/-- What a notice on the record would say: whose record it is, and its target; a WAITING record has nothing to report
(R123). -/
def Record.report (r : Record) : Option (AgentId × Target) := if r.isWaiting then none else some (r.agent, r.target)

/-- The agent of a SPENT record. -/
def Record.spentBy (r : Record) : Option AgentId := if r.isSpent then some r.agent else none

/-- What a notice on the record in slot i would say. -/
def State.report (s : State) (i : SlotId) : Option (AgentId × Target) := (s.record i).bind Record.report

/-- The agent of the SPENT record in slot i. -/
def State.spentBy (s : State) (i : SlotId) : Option AgentId := (s.record i).bind Record.spentBy

/-- The handles that agent a's notice queue reports on, oldest entry first. -/
def State.noticed (s : State) (a : AgentId) : List Handle := (s.notice a).entries.map Notice.handle

theorem Record.report_eq_some {r : Record} {a : AgentId} {x : Target} :
    r.report = some (a, x) ↔ r.agent = a ∧ r.isWaiting = false ∧ r.target = x := by
  unfold Record.report
  cases r.isWaiting <;> simp

theorem Record.spentBy_eq_some {r : Record} {a : AgentId} : r.spentBy = some a ↔ r.isSpent = true ∧ r.agent = a := by
  simp [Record.spentBy]

theorem Record.report_of_waiting {r : Record} {x : Target} {d : Nat} {c : Option Nat}
    (waits : r.standing = .waiting x d c) : r.report = none := by
  simp [Record.report, Record.isWaiting, waits]

theorem Record.report_of_not_waiting {r : Record} (settled : r.isWaiting = false) :
    r.report = some (r.agent, r.target) := by
  simp [Record.report, settled]

theorem Record.report_of_holding {r : Record} {u : UnitId} (holds : r.holding = some u) :
    r.report = some (r.agent, .unit u) := by
  unfold Record.holding at holds
  split at holds <;> simp_all [Record.report, Record.isWaiting, Record.target, Standing.claim, Claim.target]

theorem Record.isSpent_of_holding {r : Record} {u : UnitId} (holds : r.holding = some u) : r.isSpent = false := by
  unfold Record.holding at holds
  unfold Record.isSpent
  split at holds <;> simp_all

theorem Record.report_of_held {r : Record} {u : UnitId} {d : Nat} {c : Option Nat} (holds : r.standing = .held u d c) :
    r.report = some (r.agent, .unit u) :=
  Record.report_of_holding (Record.holding_of_held holds)

theorem Record.spentBy_of_held {r : Record} {u : UnitId} {d : Nat} {c : Option Nat} (holds : r.standing = .held u d c) :
    r.spentBy = none := by
  simp [Record.spentBy, Record.isSpent, holds]

/-- A SPENT record has something to report. -/
theorem Record.report_of_spentBy {r : Record} {a : AgentId} (spent : r.spentBy = some a) :
    r.report = some (a, r.target) := by
  obtain ⟨ended, owner⟩ := Record.spentBy_eq_some.mp spent
  refine Record.report_eq_some.mpr ⟨owner, ?_, rfl⟩
  unfold Record.isSpent at ended
  split at ended
  · next h => simp [Record.isWaiting, h]
  all_goals cases ended

/-- A lower countdown leaves a record with what it had to report. -/
theorem Record.report_lowered (r : Record) (c : Nat) :
    Record.report { r with standing := r.standing.lowered c } = r.report := by
  unfold Record.report Record.isWaiting Record.target Standing.lowered
  cases r.standing with
  | waiting x => cases x <;> rfl
  | held => rfl
  | recalled => rfl
  | spent => rfl

theorem Record.spentBy_lowered (r : Record) (c : Nat) :
    Record.spentBy { r with standing := r.standing.lowered c } = r.spentBy := by
  unfold Record.spentBy Record.isSpent Standing.lowered
  cases r.standing <;> rfl

theorem State.report_of_record {s : State} {i : SlotId} {r : Record} (found : s.record i = some r) :
    s.report i = r.report := by
  simp [State.report, found]

theorem State.report_congr {s t : State} {i : SlotId} (same : t.record i = s.record i) : t.report i = s.report i := by
  rw [State.report, same, State.report]

theorem State.report_eq_some {s : State} {i : SlotId} {a : AgentId} {x : Target} :
    s.report i = some (a, x) ↔ ∃ r, s.record i = some r ∧ r.agent = a ∧ r.isWaiting = false ∧ r.target = x := by
  simp only [State.report, Option.bind_eq_some_iff, Record.report_eq_some]

theorem State.spentBy_of_record {s : State} {i : SlotId} {r : Record} (found : s.record i = some r) :
    s.spentBy i = r.spentBy := by
  simp [State.spentBy, found]

theorem State.spentBy_congr {s t : State} {i : SlotId} (same : t.record i = s.record i) :
    t.spentBy i = s.spentBy i := by
  rw [State.spentBy, same, State.spentBy]

theorem State.spentBy_eq_some {s : State} {i : SlotId} {a : AgentId} :
    s.spentBy i = some a ↔ ∃ r, s.record i = some r ∧ r.isSpent = true ∧ r.agent = a := by
  simp only [State.spentBy, Option.bind_eq_some_iff, Record.spentBy_eq_some]

theorem State.exists_report_of_spentBy {s : State} {i : SlotId} {a : AgentId} (spent : s.spentBy i = some a) :
    ∃ x, s.report i = some (a, x) := by
  obtain ⟨r, found, here⟩ := Option.bind_eq_some_iff.mp spent
  exact ⟨r.target, by rw [State.report_of_record found, Record.report_of_spentBy here]⟩

theorem State.owner_of_report {s : State} {i : SlotId} {a : AgentId} {x : Target} (here : s.report i = some (a, x)) :
    s.owner i = some a := by
  obtain ⟨r, found, owner, _⟩ := State.report_eq_some.mp here
  simp [State.owner, found, owner]

theorem State.handle_of_serial {s t : State} {i : SlotId} (same : (t.slot i).serial = (s.slot i).serial) :
    t.handle i = s.handle i := by
  simp [State.handle, same]

theorem State.mem_noticed {s : State} {a : AgentId} {h : Handle} :
    h ∈ s.noticed a ↔ ∃ n, n ∈ (s.notice a).entries ∧ n.handle = h :=
  List.mem_map

/-! ### The law, read through reports -/

/-- The law: an entry says what its record would report, no two have one handle, and every SPENT record is noticed. -/
theorem noticeLaw_iff (s : State) :
    NoticeLaw s ↔
      (∀ a n, n ∈ (s.notice a).entries →
        s.report n.handle.slot = some (a, n.target) ∧ s.handle n.handle.slot = n.handle) ∧
      (∀ a, (s.noticed a).Nodup) ∧ ∀ i a, s.spentBy i = some a → s.handle i ∈ s.noticed a := by
  refine and_congr ?reports (and_congr Iff.rfl ?spent)
  case reports =>
    refine forall_congr' fun a => forall_congr' fun n => imp_congr_right fun _ => ?_
    rw [State.report_eq_some]
    constructor
    · rintro ⟨r, found, owner, live, settled, target⟩
      exact ⟨⟨r, found, owner, settled, target⟩, live⟩
    · rintro ⟨⟨r, found, owner, settled, target⟩, live⟩
      exact ⟨r, found, owner, live, settled, target⟩
  case spent =>
    have noticed (i : SlotId) (a : AgentId) : s.hasEntry a i = true ↔ s.handle i ∈ s.noticed a := by
      simp [State.hasEntry, State.mem_noticed]
    simp only [noticed, State.spentBy_eq_some]
    constructor
    · rintro spent i _ ⟨r, found, ended, rfl⟩
      exact spent i r found ended
    · exact fun spent i r found ended => spent i r.agent ⟨r, found, ended, rfl⟩

/-! ### Entries that leave a queue -/

/-- No entry joins a queue, and none stays whose record has another report: the law is kept where the SPENT records that
remain keep their entries. -/
theorem NoticeLaw.of_sublist {s t : State} (law : NoticeLaw s)
    (handle : ∀ j w, s.report j = some w → t.handle j = s.handle j)
    (entries : ∀ b, (t.notice b).entries.Sublist (s.notice b).entries)
    (report : ∀ b n, n ∈ (t.notice b).entries → t.report n.handle.slot = s.report n.handle.slot)
    (spent : ∀ j a, t.spentBy j = some a →
      s.spentBy j = some a ∧ (s.handle j ∈ s.noticed a → s.handle j ∈ t.noticed a)) : NoticeLaw t := by
  obtain ⟨reports, nodup, noticed⟩ := (noticeLaw_iff s).mp law
  refine (noticeLaw_iff t).mpr ⟨fun a n mem => ?_, fun a => ?_, fun j a ended => ?_⟩
  · obtain ⟨current, live⟩ := reports a n ((entries a).mem mem)
    exact ⟨(report a n mem).trans current, (handle _ _ current).trans live⟩
  · exact (nodup a).sublist ((entries a).map _)
  · obtain ⟨before, stays⟩ := spent j a ended
    obtain ⟨x, current⟩ := State.exists_report_of_spentBy before
    rw [handle j _ current]
    exact stays (noticed j a before)

/-- A change of neither entries nor reports. -/
theorem NoticeLaw.of_same {s t : State} (law : NoticeLaw s) (serial : ∀ j, (t.slot j).serial = (s.slot j).serial)
    (entries : ∀ b, (t.notice b).entries = (s.notice b).entries) (report : ∀ j, t.report j = s.report j)
    (spent : ∀ j, t.spentBy j = s.spentBy j) : NoticeLaw t := by
  refine law.of_sublist (fun j _ _ => State.handle_of_serial (serial j)) (fun b => by rw [entries])
    (fun _ _ _ => report _) fun j a ended => ⟨spent j ▸ ended, fun mem => ?_⟩
  rwa [State.noticed, entries]

theorem NoticeLaw.of_unwritten {s t : State} (law : NoticeLaw s) (slot : ∀ j, t.slot j = s.slot j)
    (entries : ∀ b, (t.notice b).entries = (s.notice b).entries) : NoticeLaw t := by
  have record (j : SlotId) : t.record j = s.record j := congrArg Slot.record (slot j)
  exact law.of_same (fun j => by rw [slot]) entries (fun j => State.report_congr (record j))
    fun j => State.spentBy_congr (record j)

/-- A record rewritten to one with the same report; no entry is written. -/
theorem NoticeLaw.of_rewrite {s t : State} (law : NoticeLaw s) {i : SlotId} {r r' : Record}
    (found : s.record i = some r) (record : ∀ j, t.record j = if j = i then some r' else s.record j)
    (report : r'.report = r.report) (spent : r'.spentBy = r.spentBy)
    (serial : ∀ j, (t.slot j).serial = (s.slot j).serial)
    (entries : ∀ b, (t.notice b).entries = (s.notice b).entries) : NoticeLaw t := by
  have rewritten : t.record i = some r' := by rw [record, if_pos rfl]
  refine law.of_same serial entries (fun j => ?_) fun j => ?_
  · by_cases h : j = i
    · rw [h, State.report_of_record rewritten, State.report_of_record found, report]
    · exact State.report_congr (by rw [record, if_neg h])
  · by_cases h : j = i
    · rw [h, State.spentBy_of_record rewritten, State.spentBy_of_record found, spent]
    · exact State.spentBy_congr (by rw [record, if_neg h])

/-- Without records and entries the law holds: a part just reset. -/
theorem noticeLaw_of_empty {s : State} (free : ∀ i, s.record i = none) (empty : ∀ a, (s.notice a).entries = []) :
    NoticeLaw s :=
  ⟨by simp [empty], by simp [empty], by simp [free]⟩

/-- The mode of a record is no part of its report. -/
theorem NoticeLaw.setMode {s : State} (law : NoticeLaw s) (i : SlotId) (m : Mode) : NoticeLaw (s.setMode i m) := by
  cases found : s.record i with
  | none => rw [State.setMode, found]; exact law
  | some r =>
    rw [State.setMode_of_record found]
    exact law.of_rewrite found (s.record_writeRecord i _) rfl rfl (s.serial_writeRecord i _) fun _ => rfl

theorem NoticeLaw.clearMarkOf {s : State} (law : NoticeLaw s) (u : UnitId) (i : SlotId) :
    NoticeLaw (s.clearMarkOf u i) :=
  law.of_unwritten (s.clearMarkOf_slot u i) fun b => by rw [State.clearMarkOf_notice]

/-- A removed record takes its entry with it, and no other entry reports on its slot (R127). -/
theorem NoticeLaw.remove {s : State} (law : NoticeLaw s) {i : SlotId} {r : Record} (found : s.record i = some r) :
    NoticeLaw (s.remove i r) := by
  obtain ⟨reports, _, _⟩ := (noticeLaw_iff s).mp law
  have entries (b : AgentId) (n : Notice) :
      n ∈ ((s.remove i r).notice b).entries ↔ n ∈ (s.notice b).entries ∧ (b = r.agent → n.handle ≠ s.handle i) := by
    rw [State.remove_notice]
    split <;> simp_all
  refine law.of_sublist (fun j _ _ => s.remove_handle i r j) (fun b => ?_) (fun b n mem => ?_) fun j a ended => ?_
  · rw [State.remove_notice]
    split
    · exact List.filter_sublist
    · exact List.Sublist.refl _
  · obtain ⟨before, other⟩ := (entries b n).mp mem
    obtain ⟨current, live⟩ := reports b n before
    have elsewhere : n.handle.slot ≠ i := by
      rintro rfl
      obtain ⟨q, here, owner, _⟩ := State.report_eq_some.mp current
      cases found.symm.trans here
      exact other owner.symm live.symm
    exact State.report_congr (by rw [State.remove_record, if_neg elsewhere])
  · have elsewhere : j ≠ i := by
      rintro rfl
      simp [State.spentBy, State.remove_record] at ended
    refine ⟨?_, fun mem => ?_⟩
    · rw [← ended]
      exact (State.spentBy_congr (by rw [State.remove_record, if_neg elsewhere])).symm
    · obtain ⟨n, before, same⟩ := State.mem_noticed.mp mem
      refine State.mem_noticed.mpr ⟨n, (entries a n).mpr ⟨before, fun _ h => elsewhere ?_⟩, same⟩
      exact congrArg Handle.slot (same.symm.trans h)

/-- The oldest entry is read: the law is kept where its record, if it still stands, is not SPENT (R128). -/
theorem NoticeLaw.readEntry {s : State} (law : NoticeLaw s) {a : AgentId} {n : Notice} {rest : List Notice}
    (head : (s.notice a).entries = n :: rest)
    (unspent : s.handle n.handle.slot = n.handle → (s.record n.handle.slot).any Record.isSpent = false) :
    NoticeLaw (s.setNotice a { s.notice a with entries := rest }) := by
  refine law.of_sublist (fun _ _ _ => rfl) (fun b => ?_) (fun _ _ _ => rfl) fun j b ended => ⟨ended, fun mem => ?_⟩
  · rw [State.notice_setNotice]
    split
    · next h => rw [h, head]; exact List.sublist_cons_self n rest
    · exact List.Sublist.refl _
  · rw [State.noticed, State.notice_setNotice]
    split
    · next h =>
      subst h
      rw [State.noticed, head, List.map_cons, List.mem_cons] at mem
      refine mem.resolve_left fun same => ?_
      have ended : s.spentBy j = some b := ended
      obtain ⟨r, found, spent, _⟩ := State.spentBy_eq_some.mp ended
      have slot : n.handle.slot = j := congrArg Handle.slot same.symm
      have still := unspent (by rw [slot, same])
      rw [slot, found, Option.any_some, spent] at still
      cases still
    · exact mem

/-- The oldest entry is read and its SPENT record retired: the retirement would have withdrawn that entry (R128). -/
theorem NoticeLaw.readSpent {s : State} (law : NoticeLaw s) {a : AgentId} {n : Notice} {rest : List Notice} {r : Record}
    (head : (s.notice a).entries = n :: rest) (live : s.handle n.handle.slot = n.handle)
    (found : s.record n.handle.slot = some r) :
    NoticeLaw ((s.setNotice a { s.notice a with entries := rest }).remove n.handle.slot r) := by
  obtain ⟨reports, _, _⟩ := (noticeLaw_iff s).mp law
  obtain ⟨current, _⟩ := reports a n (by rw [head]; exact List.mem_cons_self)
  obtain ⟨q, here, owner, _⟩ := State.report_eq_some.mp current
  cases found.symm.trans here
  have record (j : SlotId) : ((s.setNotice a { s.notice a with entries := rest }).remove n.handle.slot r).record j =
      (s.remove n.handle.slot r).record j := by
    rw [State.remove_record, State.remove_record]; rfl
  refine (law.remove found).of_same (fun j => by rw [State.remove_serial, State.remove_serial]; rfl) (fun b => ?_)
    (fun j => State.report_congr (record j)) fun j => State.spentBy_congr (record j)
  rw [State.remove_notice, State.remove_notice, owner]
  split
  · next h => subst h; simp [head, State.setNotice_handle, live]
  · next h => rw [State.notice_setNotice_of_ne _ _ h]

/-- The start of a walk frees the agent's SPENT records and empties its queue (R132, R141). -/
theorem NoticeLaw.beginWalk {s : State} (law : NoticeLaw s) (a : AgentId) : NoticeLaw (s.beginWalk a) := by
  obtain ⟨reports, _, _⟩ := (noticeLaw_iff s).mp law
  have kept (j : SlotId) {b : AgentId} (owner : s.owner j = some b) (other : b ≠ a) :
      (s.beginWalk a).record j = s.record j := by
    obtain ⟨r, found, rfl⟩ := Option.map_eq_some_iff.mp owner
    rw [State.beginWalk_record, found, Option.any_some, if_neg (by simp [other])]
  refine law.of_sublist (fun j _ _ => State.handle_of_serial (s.beginWalk_serial a j)) (fun b => ?_)
    (fun b n mem => ?_) fun j b ended => ?_
  · rw [State.beginWalk_notice]
    split
    · exact List.nil_sublist _
    · exact List.Sublist.refl _
  · rw [State.beginWalk_notice] at mem
    split at mem
    · cases mem
    · next other => exact State.report_congr (kept _ (State.owner_of_report (reports b n mem).1) other)
  · obtain ⟨r, found, spent, rfl⟩ := State.spentBy_eq_some.mp ended
    rw [State.beginWalk_record] at found
    split at found
    · cases found
    · next stays =>
      rw [found, Option.any_some, spent] at stays
      have other : r.agent ≠ a := by simpa using stays
      refine ⟨State.spentBy_eq_some.mpr ⟨r, found, spent, rfl⟩, fun mem => ?_⟩
      rwa [State.noticed, State.beginWalk_notice, if_neg other]

/-! ### A post -/

/-- A post leaves the handles of a queue as they are, or adds its own at the tail where no entry had it (R123). -/
theorem postEntry_handles (entries : List Notice) (n : Notice) :
    (postEntry entries n).map Notice.handle =
      if n.handle ∈ entries.map Notice.handle then entries.map Notice.handle
      else entries.map Notice.handle ++ [n.handle] := by
  have kinds (e : Notice) :
      Notice.handle (if e.handle = n.handle then { e with kind := n.kind } else e) = e.handle := by
    split <;> rfl
  unfold postEntry
  by_cases present : n.handle ∈ entries.map Notice.handle
  · rw [if_pos present, if_pos (by simpa using present), List.map_map]
    exact List.map_congr_left fun e _ => kinds e
  · rw [if_neg present, if_neg (by simpa using present), List.map_append, List.map_singleton]

theorem mem_postEntry_handles {entries : List Notice} {n : Notice} {h : Handle} :
    h ∈ (postEntry entries n).map Notice.handle ↔ h ∈ entries.map Notice.handle ∨ h = n.handle := by
  rw [postEntry_handles]
  split
  · next present => exact ⟨.inl, fun mem => mem.elim id fun same => same ▸ present⟩
  · rw [List.mem_append, List.mem_singleton]

theorem nodup_postEntry_handles {entries : List Notice} (nodup : (entries.map Notice.handle).Nodup) (n : Notice) :
    ((postEntry entries n).map Notice.handle).Nodup := by
  rw [postEntry_handles]
  split
  · exact nodup
  · next absent => exact List.concat_eq_append ▸ nodup.concat absent

/-- An entry of the queue after a post is the new one, or stands for one of before with the same handle and target
(R125). -/
theorem exists_of_mem_postEntry {entries : List Notice} {n m : Notice} (mem : m ∈ postEntry entries n) :
    m = n ∨ ∃ e, e ∈ entries ∧ e.handle = m.handle ∧ e.target = m.target := by
  unfold postEntry at mem
  split at mem
  · obtain ⟨e, before, rfl⟩ := List.mem_map.mp mem
    refine .inr ⟨e, before, ?_⟩
    split <;> exact ⟨rfl, rfl⟩
  · rcases List.mem_append.mp mem with before | new
    · exact .inr ⟨m, before, rfl, rfl⟩
    · exact .inl (List.mem_singleton.mp new)

/-- The record of slot i comes to report x, as it did already if it reported, and its agent is told or not; a SPENT
record's agent is told (R123, R126). -/
theorem NoticeLaw.of_post {s t : State} (law : NoticeLaw s) {i : SlotId} {r r' : Record} {x : Target}
    {kind : NoticeKind} (told : Prop) [Decidable told] (found : s.record i = some r)
    (record : ∀ j, t.record j = if j = i then some r' else s.record j)
    (before : r.report = none ∨ r.report = some (r.agent, x)) (after : r'.report = some (r.agent, x))
    (unspent : ¬ told → r'.isSpent = false) (serial : ∀ j, (t.slot j).serial = (s.slot j).serial)
    (entries : ∀ b, (t.notice b).entries =
      if b = r.agent ∧ told then postEntry (s.notice b).entries ⟨kind, s.handle i, x⟩ else (s.notice b).entries) :
    NoticeLaw t := by
  obtain ⟨reports, nodup, noticed⟩ := (noticeLaw_iff s).mp law
  have rewritten : t.record i = some r' := by rw [record, if_pos rfl]
  have handle (j : SlotId) : t.handle j = s.handle j := State.handle_of_serial (serial j)
  have now : t.report i = some (r.agent, x) := by rw [State.report_of_record rewritten, after]
  have kept {j : SlotId} {w : AgentId × Target} (here : s.report j = some w) : t.report j = some w := by
    by_cases h : j = i
    · subst h
      rw [State.report_of_record found] at here
      rw [now, ← here]
      exact (before.resolve_left fun none => nomatch none.symm.trans here).symm
    · rw [← here]
      exact State.report_congr (by rw [record, if_neg h])
  have stays {a : AgentId} {h : Handle} (mem : h ∈ s.noticed a) : h ∈ t.noticed a := by
    rw [State.noticed, entries]
    split
    · exact mem_postEntry_handles.mpr (.inl mem)
    · exact mem
  refine (noticeLaw_iff t).mpr ⟨fun a n mem => ?reports, fun a => ?nodup, fun j a ended => ?spent⟩
  case reports =>
    have old {e : Notice} (mem : e ∈ (s.notice a).entries) :
        t.report e.handle.slot = some (a, e.target) ∧ t.handle e.handle.slot = e.handle := by
      obtain ⟨same, live⟩ := reports a e mem
      exact ⟨kept same, (handle _).trans live⟩
    rw [entries] at mem
    split at mem
    · next here =>
      rcases exists_of_mem_postEntry mem with rfl | ⟨e, standing, sameHandle, sameTarget⟩
      · exact ⟨here.1 ▸ now, handle i⟩
      · rw [← sameHandle, ← sameTarget]
        exact old standing
    · exact old mem
  case nodup =>
    rw [State.noticed, entries]
    split
    · exact nodup_postEntry_handles (nodup a) _
    · exact nodup a
  case spent =>
    rw [handle]
    by_cases h : j = i
    · subst h
      rw [State.spentBy_of_record rewritten] at ended
      obtain ⟨spent, _⟩ := Record.spentBy_eq_some.mp ended
      have owner : a = r.agent := by
        have same := (Record.report_of_spentBy ended).symm.trans after
        simpa using congrArg (Option.map Prod.fst) same
      have posted : told := by
        by_contra silent
        exact nomatch spent.symm.trans (unspent silent)
      rw [State.noticed, entries, if_pos ⟨owner, posted⟩]
      exact mem_postEntry_handles.mpr (.inr rfl)
    · refine stays (noticed j a ?_)
      rw [← ended]
      exact (State.spentBy_congr (by rw [record, if_neg h])).symm

/-- A granted waiter is told of its lease, unless the calling command created it (R74, R78). -/
theorem NoticeLaw.grant {s : State} (law : NoticeLaw s) (own : Option SlotId) (u : UnitId) {i : SlotId} {r : Record}
    {x : Target} {d : Nat} {c : Option Nat} (found : s.record i = some r) (waits : r.standing = .waiting x d c) :
    NoticeLaw (s.grant own u i) := by
  refine law.of_post (own ≠ some i ∧ s.isAttached r.agent = true) (kind := .granted) found
    (s.grant_record own u i r x d c found waits) (.inl (Record.report_of_waiting waits)) (Record.report_of_held rfl)
    (fun _ => rfl) (s.grant_serial own u i) fun b => ?_
  rw [s.grant_notice own u i r x d c found waits, apply_ite NoticeQueue.entries]
  exact if_congr and_left_comm rfl rfl

/-- A pending upgrade takes effect on the unit's one holder (R71). -/
theorem NoticeLaw.upgrade {s : State} (law : NoticeLaw s) {u : UnitId} {i : SlotId} (alone : s.holders u = [i]) :
    NoticeLaw (((s.clearMark u).setMode i .exclusive).post .upgraded i) := by
  obtain ⟨r, found, holds⟩ := (s.mem_holders u i).mp (by rw [alone]; exact List.mem_singleton_self i)
  have converted (j : SlotId) : ((s.clearMark u).setMode i .exclusive).record j =
      if j = i then some { r with mode := .exclusive } else s.record j := by
    rw [State.setMode_record, State.clearMark_record]
    split
    · next h => rw [h, found, Option.map_some]
    · rfl
  have report := Record.report_of_holding holds
  refine law.of_post (s.isAttached r.agent = true) (kind := .upgraded) found (r' := { r with mode := .exclusive })
    (fun j => by rw [State.post_record, converted]) (.inr report) report (fun _ => ?_) (fun j => by simp) fun b => ?_
  · exact Record.isSpent_of_holding holds
  · have target : Record.target { r with mode := .exclusive } = .unit u := by
      obtain ⟨_, _, target⟩ := Record.report_eq_some.mp report
      exact target
    have same : ((s.clearMark u).setMode i .exclusive).handle i = s.handle i :=
      State.handle_of_serial (by simp)
    rw [State.post_notice, converted, if_pos rfl]
    dsimp only
    rw [apply_ite NoticeQueue.entries, target, same]
    simp

/-- A record that is spent for an ATTACHED agent is noticed in the same event (R29, R126). -/
theorem NoticeLaw.markSpent {s : State} (law : NoticeLaw s) {i : SlotId} {r : Record} (found : s.record i = some r)
    (attached : s.isAttached r.agent = true) (cause : SpentCause) : NoticeLaw (s.markSpent i r cause) := by
  refine law.of_post (s.isAttached r.agent = true) (kind := cause.notice) found
    (s.markSpent_record i r cause) (x := r.target) ?_ rfl (absurd attached) (s.markSpent_serial i r cause) fun b => ?_
  · cases waits : r.isWaiting with
    | true => exact .inl (by simp [Record.report, waits])
    | false => exact .inr (Record.report_of_not_waiting waits)
  · rw [State.markSpent_notice, apply_ite NoticeQueue.entries]

/-- A recalled record keeps its unit, and its agent is told (R158). -/
theorem NoticeLaw.markRecalled {s : State} (law : NoticeLaw s) {i : SlotId} {r : Record} {u : UnitId} {d : Nat}
    {c : Option Nat} (found : s.record i = some r) (holds : r.standing = .held u d c) :
    NoticeLaw (s.markRecalled i r u d) := by
  refine law.of_post (s.isAttached r.agent = true) (kind := .recalled) found
    (s.markRecalled_record i r u d) (.inr (Record.report_of_held holds)) rfl (fun _ => rfl)
    (s.markRecalled_serial i r u d) fun b => ?_
  rw [State.markRecalled_notice, apply_ite NoticeQueue.entries]

/-! ### Every step keeps the notices -/

theorem Primitive.keeps_noticeLaw {s t : State} (change : Primitive s t) (law : NoticeLaw s) : NoticeLaw t := by
  have serial := change.serial
  cases change with
  | attention a on =>
    refine law.of_same serial (fun b => ?_) (fun _ => rfl) fun _ => rfl
    rw [State.notice_setNotice]
    split
    · next h => rw [h]
    · rfl
  | grant own u i r x d c found waits => exact law.grant own u found waits
  | upgrade u i _ _ alone => exact law.upgrade alone
  | upgradeAlone u i => exact (law.clearMarkOf u i).setMode i .exclusive
  | downgrade _ i => exact law.setMode i .shared
  | depth i r u d d' c found holds =>
    exact law.of_rewrite found (s.record_writeRecord i _) (Record.report_of_held holds).symm
      (Record.spentBy_of_held holds).symm serial fun _ => rfl
  | renew i r u d c requested found holds =>
    exact law.of_rewrite found (s.record_loadRecord i _) (Record.report_of_held holds).symm
      (Record.spentBy_of_held holds).symm serial fun _ => rfl
  | remove _ _ found => exact law.remove found
  | readSpent _ _ _ _ head live found => exact law.readSpent head live found
  | readEntry _ _ _ head unspent => exact law.readEntry head unspent
  | spend _ _ cause found attached => exact law.markSpent found attached cause
  | markRecalled _ _ _ _ _ found holds => exact law.markRecalled found holds
  | completeDrain u => exact law.of_unwritten (s.completeDrain_slot u) fun b => by rw [State.completeDrain_notice]
  | endWalk a => exact law.of_unwritten (s.endWalk_slot a) fun b => by rw [State.endWalk_notice]
  | beginWalk a => exact law.beginWalk a
  | countdown i r _ found =>
    exact law.of_rewrite found (s.record_writeRecord i _) (r.report_lowered _) (r.spentBy_lowered _) serial fun _ => rfl
  | resetLive => exact noticeLaw_of_empty s.cleared_record fun a => by rw [State.cleared_notice]
  | hardwareReset => exact noticeLaw_of_empty s.hardwareReset_record fun a => by rw [State.hardwareReset_notice]
  | _ => exact law

/-- No entry reports on a FREE slot, so none names the slot under its old serial, and a waiter has nothing to report. -/
theorem Allocation.keeps_noticeLaw {s t : State} (new : Allocation s t) (law : NoticeLaw s) : NoticeLaw t := by
  obtain ⟨i, a, mode, x, requested, waitLimit, free⟩ := new
  have absent : s.report i = none := by simp [State.report, free]
  have elsewhere {j : SlotId} (h : j ≠ i) : (s.allocate i a mode x requested waitLimit).record j = s.record j := by
    rw [State.allocate_record, if_neg h]
  have record : (s.allocate i a mode x requested waitLimit).report i = none := by
    rw [State.report, State.allocate_record, if_pos rfl]; rfl
  refine law.of_sublist (fun j w here => ?_) (fun b => ?_) (fun b n _ => ?_) fun j b ended => ?_
  · have h : j ≠ i := by
      rintro rfl
      exact nomatch absent.symm.trans here
    exact State.handle_of_serial (by rw [State.allocate_serial, if_neg h])
  · rw [State.allocate_notice]
  · by_cases h : n.handle.slot = i
    · rw [h, record, absent]
    · exact State.report_congr (elsewhere h)
  · have h : j ≠ i := by
      rintro rfl
      obtain ⟨y, here⟩ := State.exists_report_of_spentBy ended
      exact nomatch record.symm.trans here
    refine ⟨by rw [← ended]; exact (State.spentBy_congr (elsewhere h)).symm, fun mem => ?_⟩
    rwa [State.noticed, State.allocate_notice]

/-! ### Every step keeps the quotas (R38) -/

theorem State.recordCount_le_of_owner {s t : State} (a : AgentId)
    (owned : ∀ j, t.owner j = some a → s.owner j = some a) : t.recordCount a ≤ s.recordCount a := by
  unfold State.recordCount
  exact List.countP_mono_left fun j _ here => by simpa using owned j (by simpa using here)

/-- No primitive change gives an agent a record. -/
theorem Primitive.recordCount_le {s t : State} (change : Primitive s t) (a : AgentId) :
    t.recordCount a ≤ s.recordCount a := by
  refine State.recordCount_le_of_owner a fun j here => ?_
  obtain ⟨r', found, owner⟩ := Option.map_eq_some_iff.mp here
  obtain ⟨r, before, rewritten⟩ := change.record_change found
  rw [State.owner, before, Option.map_some, ← rewritten.agent, owner]

/-- An allocation gives one record, and to its agent alone. -/
theorem State.allocate_recordCount_le (s : State) {i : SlotId} {a : AgentId} {m : Mode} {x : Target} {d w : Nat}
    (b : AgentId) :
    (s.allocate i a m x d w).recordCount b ≤ s.recordCount b + if b = a then 1 else 0 := by
  by_cases same : b = a
  · have others : (allSlots.filter fun j => (s.allocate i a m x d w).owner j == some b) ⊆
        i :: allSlots.filter fun j => s.owner j == some b := fun j mem => by
      by_cases h : j = i
      · exact List.mem_cons.mpr (.inl h)
      · rw [List.mem_filter, State.owner, State.allocate_record, if_neg h] at mem
        exact List.mem_cons_of_mem i (List.mem_filter.mpr mem)
    rw [if_pos same, State.recordCount, State.recordCount, List.countP_eq_length_filter, List.countP_eq_length_filter]
    exact (((List.nodup_finRange 96).filter _).subperm others).length_le
  · rw [if_neg same]
    refine State.recordCount_le_of_owner b fun j here => ?_
    rw [State.owner, State.allocate_record] at here
    split at here
    · exact absurd (Option.some.inj here).symm same
    · exact here

theorem State.setAgent_quota (s : State) (a : AgentId) {x : AgentRecord} (same : x.quota = (s.agent a).quota)
    (b : AgentId) : ((s.setAgent a x).agent b).quota = (s.agent b).quota := by
  rw [State.agent_setAgent]
  split
  · next h => rw [same, h]
  · rfl

/-- Fewer records under the same quotas keep the law. -/
theorem QuotaLaw.of_same {s t : State} (law : QuotaLaw s) (count : ∀ a, t.recordCount a ≤ s.recordCount a)
    (quota : ∀ a, (t.agent a).quota = (s.agent a).quota) : QuotaLaw t := by
  intro a
  obtain ⟨room, range⟩ := law a
  rw [quota]
  exact ⟨(count a).trans room, range⟩

theorem State.recordCount_of_free {s : State} (free : ∀ i, s.record i = none) (a : AgentId) : s.recordCount a = 0 := by
  simp [State.recordCount, State.owner, free]

theorem defaultQuota_le : Config.defaultQuota ≤ 8 := by decide

/-- No primitive change gives an agent a record, and where a quota is written it is in range and has room for the agent's
records (R152). -/
theorem Primitive.keeps_quotaLaw {s t : State} (change : Primitive s t) (law : QuotaLaw s) : QuotaLaw t := by
  have count := change.recordCount_le
  cases change with
  | attach a => exact law.of_same count (s.setAgent_quota a rfl)
  | hold a => exact law.of_same count (s.setAgent_quota a rfl)
  | clearance a => exact law.of_same count (s.setAgent_quota a rfl)
  | grant own u i => exact law.of_same count fun a => by rw [State.grant_agent]
  | upgrade => exact law.of_same count fun a => by simp
  | upgradeAlone => exact law.of_same count fun a => by simp
  | downgrade => exact law.of_same count fun a => by simp
  | remove i r => exact law.of_same count fun a => by rw [State.remove_agent]; split <;> rfl
  | readSpent b n rest r => exact law.of_same count fun a => by rw [State.remove_agent]; split <;> rfl
  | spend => exact law.of_same count fun a => by rw [State.markSpent_agent]
  | markRecalled => exact law.of_same count fun a => by rw [State.markRecalled_agent]
  | completeDrain => exact law.of_same count fun a => by rw [State.completeDrain_agent]
  | endWalk => exact law.of_same count fun a => by rw [State.endWalk_agent]; split <;> rfl
  | beginWalk =>
    refine law.of_same count fun a => ?_
    rw [State.beginWalk_agent]
    (repeat' split) <;> rfl
  | quota a q _ range room =>
    intro b
    obtain ⟨roomBefore, rangeBefore⟩ := law b
    rw [State.agent_setAgent]
    split
    · next h => exact ⟨h ▸ room, range⟩
    · exact ⟨roomBefore, rangeBefore⟩
  | resetLive => exact law.of_same count fun a => by rw [State.cleared_agent]
  | hardwareReset =>
    intro a
    obtain ⟨_, range⟩ := law a
    rw [State.recordCount_of_free s.hardwareReset_record, State.hardwareReset_agent]
    refine ⟨Nat.zero_le _, ?_⟩
    unfold State.keepIfFrozen
    split
    · exact range
    · exact defaultQuota_le
  | _ => exact law.of_same count fun _ => rfl

/-- A request is refused where the quota leaves no room for its record (R38). -/
theorem Allocation.keeps_quotaLaw {s t : State} (new : Allocation s t) (law : QuotaLaw s) : QuotaLaw t := by
  obtain ⟨i, a, mode, x, requested, waitLimit, _, _, _, _, room⟩ := new
  intro b
  obtain ⟨roomBefore, range⟩ := law b
  have count := s.allocate_recordCount_le (i := i) (a := a) (m := mode) (x := x) (d := requested) (w := waitLimit) b
  rw [State.allocate_agent]
  refine ⟨count.trans ?_, range⟩
  split
  · next h => subst h; exact room
  · exact roomBefore

/-- Quotas are kept by every step (R38). -/
theorem step_keeps_quotaLaw (s t : State) : QuotaLaw s → step s = .next t → QuotaLaw t := by
  refine step_keeps (P := QuotaLaw) (fun _ _ => Primitive.keeps_quotaLaw) (fun _ _ => Allocation.keeps_quotaLaw)
    (fun straps _ _ => ?_) (fun _ _ kept => kept) s t
  have fresh : QuotaLaw (State.afterPowerOn straps) := fun a => by
    rw [State.recordCount_of_free (State.afterPowerOn_record straps), State.afterPowerOn_agent]
    exact ⟨Nat.zero_le _, defaultQuota_le⟩
  exact fresh

/-! ### The bound of a queue (R126) -/

/-- Each entry reports on a record of its own, and all of them are the agent's. -/
theorem NoticeLaw.length_le_recordCount {s : State} (law : NoticeLaw s) (a : AgentId) :
    (s.notice a).entries.length ≤ s.recordCount a := by
  obtain ⟨reports, nodup, _⟩ := (noticeLaw_iff s).mp law
  have live {h : Handle} (mem : h ∈ s.noticed a) : s.handle h.slot = h ∧ s.owner h.slot = some a := by
    obtain ⟨n, here, rfl⟩ := State.mem_noticed.mp mem
    obtain ⟨current, live⟩ := reports a n here
    exact ⟨live, State.owner_of_report current⟩
  have distinct : ((s.noticed a).map Handle.slot).Nodup :=
    (nodup a).map_on fun h mem k mem' same => by rw [← (live mem).1, ← (live mem').1, same]
  have owned : (s.noticed a).map Handle.slot ⊆ allSlots.filter fun i => s.owner i == some a := fun i mem => by
    obtain ⟨h, here, rfl⟩ := List.mem_map.mp mem
    exact List.mem_filter.mpr ⟨List.mem_finRange _, beq_iff_eq.mpr (live here).2⟩
  calc (s.notice a).entries.length
      = ((s.noticed a).map Handle.slot).length := by rw [State.noticed, List.length_map, List.length_map]
    _ ≤ (allSlots.filter fun i => s.owner i == some a).length := (distinct.subperm owned).length_le
    _ = s.recordCount a := List.countP_eq_length_filter.symm

theorem step_keeps_noticeLaw (s t : State) : NoticeLaw s → step s = .next t → NoticeLaw t := by
  refine step_keeps (P := NoticeLaw) (fun _ _ => Primitive.keeps_noticeLaw) (fun _ _ => Allocation.keeps_noticeLaw)
    (fun straps _ _ => ?_) (fun _ _ kept => kept) s t
  have fresh : NoticeLaw (State.afterPowerOn straps) :=
    noticeLaw_of_empty (State.afterPowerOn_record straps) fun a => by rw [State.afterPowerOn_notice]
  exact fresh

/-- Settles O54: every step keeps the notices and the quotas, and a queue is no longer than its agent's records are
many. -/
theorem noticeQueuesKept : Obligations.NoticeQueuesKept := by
  intro s t notices quotas run
  have kept : NoticeLaw t := step_keeps_noticeLaw s t notices run
  refine ⟨kept, fun a => ?_⟩
  obtain ⟨room, range⟩ := step_keeps_quotaLaw s t quotas run a
  exact (kept.length_le_recordCount a).trans (room.trans range)

end Sys2Proof.Machine
end

section
/-! SUPPORT. The completion sets and the control attention line (spec/09 R164 to R166): what a word made of single bits
reads, what READ_COMPLETIONS answers and leaves in the two sets, and the statement on READ_COMPLETIONS,
SET_CONTROL_ATTENTION and CATN_N. -/

namespace Sys2Proof.Machine

/-! ### Words made of single bits -/

theorem getLsbD_place (low width value k : Nat) :
    (place low width value).getLsbD k =
      (decide (k < 32) && (decide (low ≤ k) && (decide (k - low < width) && value.testBit (k - low)))) := by
  rw [place, BitVec.getLsbD_ofNat, Nat.testBit_mul_two_pow, Nat.testBit_mod_two_pow]

theorem testBit_flagNo (b : Bool) (k : Nat) : (flagNo b).testBit k = (b && decide (k = 0)) := by
  cases b
  · exact Nat.zero_testBit k
  · rw [Bool.eq_iff_iff, flagNo, if_pos rfl, Nat.testBit_one_eq_true_iff_self_eq_zero]
    simp

/-- A flag placed in one bit of a word reads back there and nowhere else. -/
theorem getLsbD_place_flag {k : Nat} (range : k < 32) (low : Nat) (b : Bool) :
    (place low 1 (flagNo b)).getLsbD k = (b && decide (k = low)) := by
  rw [getLsbD_place, testBit_flagNo]
  cases b
  · simp
  · simp only [Bool.true_and, ← Bool.decide_and, decide_eq_decide]
    omega

/-- The word in which the bits numbered by the entries of a list are set. -/
def bitsOf {α : Type} (number : α → Nat) (xs : List α) : Word := xs.foldl (fun w x => w ||| place (number x) 1 1) 0

theorem getLsbD_foldl_place {α : Type} {k : Nat} (range : k < 32) (number : α → Nat) (xs : List α) (w : Word) :
    (xs.foldl (fun w x => w ||| place (number x) 1 1) w).getLsbD k =
      (w.getLsbD k || xs.any fun x => decide (k = number x)) := by
  induction xs generalizing w with
  | nil => simp
  | cons x xs ih =>
    have bit : (place (number x) 1 1).getLsbD k = decide (k = number x) := getLsbD_place_flag range (number x) true
    rw [List.foldl_cons, ih, BitVec.getLsbD_or, bit, List.any_cons, Bool.or_assoc]

theorem getLsbD_bitsOf {α : Type} {k : Nat} (range : k < 32) (number : α → Nat) (xs : List α) :
    (bitsOf number xs).getLsbD k = true ↔ ∃ x ∈ xs, k = number x := by
  have zero : (0 : Word).getLsbD k = false := BitVec.getLsbD_zero
  rw [bitsOf, getLsbD_foldl_place range, zero, Bool.false_or, List.any_eq_true]
  simp only [decide_eq_true_eq]

/-! ### The two sets, and CATN_N (R164) -/

/-- The units of the drained set, in ascending number. -/
def State.drainedUnits (s : State) : List UnitId := allUnits.filter fun u => s.drained.get u

/-- The agents of the detached set, in ascending number. -/
def State.detachedAgents (s : State) : List AgentId := allAgents.filter fun a => s.detached.get a

@[simp] theorem State.mem_drainedUnits {s : State} {u : UnitId} : u ∈ s.drainedUnits ↔ s.drained.get u = true := by
  simp [State.drainedUnits, allUnits]

@[simp] theorem State.mem_detachedAgents {s : State} {a : AgentId} :
    a ∈ s.detachedAgents ↔ s.detached.get a = true := by
  simp [State.detachedAgents, allAgents]

theorem State.catn_iff (s : State) :
    s.catn = true ↔ ((∃ u : UnitId, s.drained.get u = true) ∨ ∃ a : AgentId, s.detached.get a = true) ∧
      s.controlAttention = true := by
  simp [State.catn, allUnits, allAgents]

/-! ### What READ_COMPLETIONS answers and removes (R165) -/

/-- Unit u belongs to the half of the units that is read: half 0 is units 0 to 31, half 1 units 32 to 63. -/
def inHalf (half : Nat) (u : UnitId) : Bool := decide (32 * half ≤ u.val ∧ u.val < 32 * half + 32)

@[simp] theorem inHalf_iff {half : Nat} {u : UnitId} : inHalf half u = true ↔ u.val / 32 = half := by
  rw [inHalf, decide_eq_true_eq]
  omega

/-- RESP0: the drained units of the half, each in the bit of its place there. -/
def State.drainedWord (s : State) (half : Nat) : Word :=
  bitsOf (fun u : UnitId => u.val - 32 * half) (s.drainedUnits.filter (inHalf half))

/-- A unit of the other half stands in the drained set. -/
def State.otherHalf (s : State) (half : Nat) : Bool := s.drainedUnits.any fun u => !inHalf half u

/-- RESP1: the detached agents, and in bit 31 the mark of the other half. -/
def State.detachedWord (s : State) (half : Nat) : Word :=
  bitsOf Fin.val s.detachedAgents ||| place 31 1 (flagNo (s.otherHalf half))

/-- The drained set without the units of the half. -/
def State.drainedRest (s : State) (half : Nat) : Vector Bool 64 :=
  Vector.ofFn fun u => s.drained.get u && !inHalf half u

theorem State.readHalf_eq (s : State) (half : Nat) :
    s.readHalf (32 * half) =
      ({ s with drained := s.drainedRest half, detached := Vector.replicate 16 false } : State).answerControl
        (.ok (s.drainedWord half) (s.detachedWord half)) := rfl

theorem State.drainedRest_of_inHalf {s : State} {half : Nat} {u : UnitId} (h : u.val / 32 = half) :
    (s.drainedRest half).get u = false := by
  simp [State.drainedRest, inHalf_iff.mpr h]

theorem State.drainedRest_of_otherHalf {s : State} {half : Nat} {u : UnitId} (h : u.val / 32 ≠ half) :
    (s.drainedRest half).get u = s.drained.get u := by
  have outside : inHalf half u = false := Bool.eq_false_iff.mpr (mt inHalf_iff.mp h)
  simp [State.drainedRest, outside]

/-- Two units of one half stand in different places of it. -/
theorem State.drainedWord_getLsbD {s : State} {half : Nat} {u : UnitId} (h : u.val / 32 = half) :
    (s.drainedWord half).getLsbD (u.val % 32) = s.drained.get u := by
  rw [Bool.eq_iff_iff, State.drainedWord, getLsbD_bitsOf (Nat.mod_lt _ (by decide))]
  simp only [List.mem_filter, State.mem_drainedUnits, inHalf_iff]
  constructor
  · rintro ⟨v, ⟨drained, sameHalf⟩, sameBit⟩
    have unit : u = v := Fin.ext (by omega)
    exact unit ▸ drained
  · exact fun drained => ⟨u, ⟨drained, h⟩, by omega⟩

theorem State.otherHalf_iff (s : State) (half : Nat) :
    s.otherHalf half = true ↔ ∃ u : UnitId, u.val / 32 ≠ half ∧ s.drained.get u = true := by
  simp [State.otherHalf, and_comm, ← Bool.not_eq_true]

theorem State.detachedWord_getLsbD {k : Nat} (range : k < 32) (s : State) (half : Nat) :
    (s.detachedWord half).getLsbD k = true ↔
      (∃ a : AgentId, s.detached.get a = true ∧ k = a.val) ∨ s.otherHalf half = true ∧ k = 31 := by
  rw [State.detachedWord, BitVec.getLsbD_or, getLsbD_place_flag range, Bool.or_eq_true, getLsbD_bitsOf range]
  simp

theorem State.detachedWord_getLsbD_agent (s : State) (half : Nat) (a : AgentId) :
    (s.detachedWord half).getLsbD a.val = s.detached.get a := by
  rw [Bool.eq_iff_iff, s.detachedWord_getLsbD (by omega)]
  constructor
  · rintro (⟨b, detached, sameBit⟩ | ⟨_, top⟩)
    · exact Fin.ext sameBit ▸ detached
    · omega
  · exact fun detached => .inl ⟨a, detached, rfl⟩

theorem State.detachedWord_getLsbD_mark (s : State) (half : Nat) :
    (s.detachedWord half).getLsbD 31 = true ↔ ∃ u : UnitId, u.val / 32 ≠ half ∧ s.drained.get u = true := by
  rw [s.detachedWord_getLsbD (by decide), s.otherHalf_iff]
  constructor
  · rintro (⟨a, _, top⟩ | ⟨other, _⟩)
    · omega
    · exact other
  · exact fun other => .inr ⟨other, rfl⟩

/-- Between the agents and the mark of the other half RESP1 reads 0. -/
theorem State.detachedWord_getLsbD_between (s : State) (half : Nat) {k : Nat} (low : 16 ≤ k) (high : k ≤ 30) :
    (s.detachedWord half).getLsbD k = false := by
  rw [Bool.eq_false_iff, ne_eq, s.detachedWord_getLsbD (by omega)]
  rintro (⟨a, _, here⟩ | ⟨_, top⟩) <;> omega

/-! ### READ_COMPLETIONS and SET_CONTROL_ATTENTION, a lemma per case (R165, R166) -/

section Commands

variable {aid : AgentId} {s : State}

theorem exec_readCompletions (aid : AgentId) (s : State) : exec (.readCompletions aid) s = execReadCompletions aid s :=
  rfl

theorem exec_setControlAttention (aid : AgentId) (s : State) :
    exec (.setControlAttention aid) s = execSetControlAttention aid s := rfl

theorem readCompletions_badArgument (sup : Supervises aid s) (high : 1 < bitField s.control.arg0 0 8) :
    RefusesControl (.readCompletions aid) s 0x32 Reason.badArgument 0 := by
  rw [RefusesControl, exec_readCompletions, execReadCompletions, atControlStation_supervises sup]
  simp [flagOf_eq_none high]

theorem readCompletions_read {half : Nat} (sup : Supervises aid s) (range : half ≤ 1)
    (named : bitField s.control.arg0 0 8 = half) :
    exec (.readCompletions aid) s =
      .next { s.repliedControl 0x32 (.ok (s.drainedWord half) (s.detachedWord half)) with
        drained := s.drainedRest half, detached := Vector.replicate 16 false } := by
  obtain ⟨upper, rfl⟩ : ∃ upper, half = flagNo upper := by
    rcases Nat.le_one_iff_eq_zero_or_eq_one.mp range with rfl | rfl
    · exact ⟨false, rfl⟩
    · exact ⟨true, rfl⟩
  have base : (if upper = true then 32 else 0) = 32 * flagNo upper := by cases upper <;> rfl
  rw [exec_readCompletions, execReadCompletions, atControlStation_supervises sup]
  simp only [State.takenControl_control_arg0, flagOf_of_eq_no named, base, State.readHalf_eq]
  rfl

theorem setControlAttention_badArgument (sup : Supervises aid s) (high : 1 < bitField s.control.arg0 0 2) :
    RefusesControl (.setControlAttention aid) s 0x33 Reason.badArgument 0 := by
  rw [RefusesControl, exec_setControlAttention, execSetControlAttention, atControlStation_supervises sup]
  simp [flagOf_eq_none high]

theorem setControlAttention_written {on : Bool} (sup : Supervises aid s)
    (named : bitField s.control.arg0 0 2 = flagNo on) :
    exec (.setControlAttention aid) s = .next
      { s.repliedControl 0x33 (.ok (place 0 1 (flagNo on) ||| place 8 7 s.drainedCount ||| place 16 5 s.detachedCount)
          0) with controlAttention := on } := by
  rw [exec_setControlAttention, execSetControlAttention, atControlStation_supervises sup]
  simp only [State.takenControl_control_arg0, flagOf_of_eq_no named]
  rfl

end Commands

/-- Settles O39: READ_COMPLETIONS answers and removes the entries of the half and of the detached set, and
SET_CONTROL_ATTENTION writes the enable that CATN_N follows. -/
theorem completionSets : Obligations.CompletionSets := by
  refine ⟨fun aid s sup => ⟨readCompletions_badArgument sup, fun half range named => ?_⟩,
    fun aid s sup => ⟨setControlAttention_badArgument sup, fun on named => setControlAttention_written sup named⟩,
    State.catn_iff⟩
  refine ⟨_, _, _, _, readCompletions_read sup range named, fun u h => ?_, fun u h => ?_, fun a => ?_, ?_,
    fun k low high => ?_⟩
  · exact ⟨State.drainedWord_getLsbD h, State.drainedRest_of_inHalf h⟩
  · exact State.drainedRest_of_otherHalf h
  · exact ⟨s.detachedWord_getLsbD_agent half a, Vector.get_replicate 16 false a⟩
  · exact s.detachedWord_getLsbD_mark half
  · exact s.detachedWord_getLsbD_between half low high

end Sys2Proof.Machine
end

section
/-! SUPPORT. What the dispatch gives for each command and event whose statements follow. -/

namespace Sys2Proof.Machine

section Arms

variable (aid : AgentId) (s : State)

theorem exec_attach : exec (.attach aid) s = execAttach aid s := rfl

theorem exec_detach : exec (.detach aid) s = execDetach aid s := rfl

theorem exec_acquire : exec (.acquire aid) s = execAcquire aid s := rfl

theorem exec_acquireAny : exec (.acquireAny aid) s = execAcquireAny aid s := rfl

theorem exec_release : exec (.release aid) s = execRelease aid s := rfl

theorem exec_downgrade : exec (.downgrade aid) s = execDowngrade aid s := rfl

theorem exec_queryLease : exec (.queryLease aid) s = execQueryLease aid s := rfl

theorem exec_nextNotice : exec (.nextNotice aid) s = execNextNotice aid s := rfl

theorem exec_setAttention : exec (.setAttention aid) s = execSetAttention aid s := rfl

theorem exec_setBand : exec (.setBand aid) s = execSetBand aid s := rfl

theorem exec_setClearance : exec (.setClearance aid) s = execSetClearance aid s := rfl

theorem exec_setQuota : exec (.setQuota aid) s = execSetQuota aid s := rfl

theorem exec_setTick : exec (.setTick aid) s = execSetTick aid s := rfl

theorem exec_openUnit : exec (.openUnit aid) s = execOpenUnit aid s := rfl

theorem exec_drainUnit : exec (.drainUnit aid) s = execDrainUnit aid s := rfl

theorem exec_restoreUnit : exec (.restoreUnit aid) s = execRestoreUnit aid s := rfl

theorem exec_recallLease : exec (.recallLease aid) s = execRecallLease aid s := rfl

theorem exec_recallUnit : exec (.recallUnit aid) s = execRecallUnit aid s := rfl

theorem exec_holdAgent : exec (.holdAgent aid) s = execHoldAgent aid s := rfl

theorem exec_resumeAgent : exec (.resumeAgent aid) s = execResumeAgent aid s := rfl

theorem exec_detachAgent : exec (.detachAgent aid) s = execDetachAgent aid s := rfl

theorem exec_setBottom : exec (.setBottom aid) s = execSetBottom aid s := rfl

theorem exec_freeze : exec (.freeze aid) s = execFreeze aid s := rfl

theorem exec_resetLive : exec (.resetLive aid) s = execResetLive aid s := rfl

theorem exec_inspectRecord : exec (.inspectRecord aid) s = execInspectRecord aid s := rfl

theorem exec_undefinedCommand (w : Window) (data : Word) :
    exec (.undefinedCommand aid w data) s = takeCode w aid data s := rfl

theorem exec_argumentWrite (o : WordOffset) (data : Word) :
    exec (.argumentWrite aid o data) s = portWrite aid o data s := rfl

theorem exec_busyStationWrite (o : WordOffset) (data : Word) :
    exec (.busyStationWrite aid o data) s = portWrite aid o data s := rfl

theorem exec_controlWindowRefused_read (o : WordOffset) :
    exec (.controlWindowRefused aid o .read) s = portRead aid o s := rfl

theorem exec_controlWindowRefused_write (o : WordOffset) (data : Word) :
    exec (.controlWindowRefused aid o (.write data)) s = portWrite aid o data s := rfl

end Arms

section Events

variable (s : State)

theorem exec_hardwareReset : exec .hardwareReset s = .next s.hardwareReset := rfl

theorem exec_hardwareResetRelease : exec .hardwareResetRelease s = .next { s.quiet with inReset := false } := rfl

theorem exec_tick : exec .tick s = execTick s := rfl

theorem exec_clkRisingEdge (tkin : Bool) : exec (.clkRisingEdge tkin) s = execClkRisingEdge tkin s := rfl

theorem exec_tickArrival (i : SlotId) : exec (.tickArrival i) s = execTickArrival i s := rfl

theorem exec_leaseExpiry (i : SlotId) : exec (.leaseExpiry i) s = execLeaseExpiry i s := rfl

theorem exec_waitTimeout (i : SlotId) : exec (.waitTimeout i) s = execWaitTimeout i s := rfl

theorem exec_graceExpiry (i : SlotId) : exec (.graceExpiry i) s = execGraceExpiry i s := rfl

theorem exec_withdrawalStep (a : AgentId) : exec (.withdrawalStep a) s = execWithdrawalStep a s := rfl

theorem exec_holdingStep (a : AgentId) : exec (.holdingStep a) s = execHoldingStep a s := rfl

theorem exec_walkEnd (a : AgentId) : exec (.walkEnd a) s = execWalkEnd a s := rfl

theorem exec_drainCompletion (u : UnitId) : exec (.drainCompletion u) s = execDrainCompletion u s := rfl

end Events

end Sys2Proof.Machine
end

section
/-! SUPPORT. The configuration state (spec/09 R167): it is read from a few fields of a few registers, no shared operation
writes those, and while the part is frozen no primitive change does; the statement on FREEZE. -/

namespace Sys2Proof.Machine

/-! ### What the configuration state is read from -/

/-- Two states with the same configuration fields have one configuration state. -/
theorem State.configuration_congr {s t : State} (units : ∀ u, (t.unit u).config = (s.unit u).config)
    (pools : ∀ p, (t.pool p).order = (s.pool p).order ∧ (t.pool p).rotate = (s.pool p).rotate)
    (agents : ∀ a, (t.agent a).clearance = (s.agent a).clearance ∧ (t.agent a).quota = (s.agent a).quota)
    (ceiling : t.ceiling = s.ceiling)
    (timer : t.timer.source = s.timer.source ∧ t.timer.divider = s.timer.divider) :
    t.configuration = s.configuration := by
  have unitFields : t.units.map UnitRecord.config = s.units.map UnitRecord.config :=
    Vector.ext fun i h => by simpa [State.unit, Vector.get_eq_getElem] using units ⟨i, h⟩
  have poolFields : t.pools.map (fun p => (p.order, p.rotate)) = s.pools.map fun p => (p.order, p.rotate) :=
    Vector.ext fun i h => by simpa [State.pool, Vector.get_eq_getElem] using pools ⟨i, h⟩
  have clearances : t.agents.map AgentRecord.clearance = s.agents.map AgentRecord.clearance :=
    Vector.ext fun i h => by simpa [State.agent, Vector.get_eq_getElem] using (agents ⟨i, h⟩).1
  have quotas : t.agents.map AgentRecord.quota = s.agents.map AgentRecord.quota :=
    Vector.ext fun i h => by simpa [State.agent, Vector.get_eq_getElem] using (agents ⟨i, h⟩).2
  simp only [State.configuration, unitFields, poolFields, clearances, quotas, ceiling, timer]

theorem State.setUnit_configuration (s : State) {u : UnitId} {x : UnitRecord} (same : x.config = (s.unit u).config) :
    (s.setUnit u x).configuration = s.configuration := by
  refine State.configuration_congr (fun v => ?_) (fun _ => ⟨rfl, rfl⟩) (fun _ => ⟨rfl, rfl⟩) rfl ⟨rfl, rfl⟩
  rw [State.unit_setUnit]
  split
  · next h => rw [same, h]
  · rfl

theorem State.setPool_configuration (s : State) {p : PoolId} {x : PoolRecord} (order : x.order = (s.pool p).order)
    (rotate : x.rotate = (s.pool p).rotate) : (s.setPool p x).configuration = s.configuration := by
  refine State.configuration_congr (fun _ => rfl) (fun q => ?_) (fun _ => ⟨rfl, rfl⟩) rfl ⟨rfl, rfl⟩
  rw [State.pool_setPool]
  split
  · next h => rw [order, rotate, h]; exact ⟨rfl, rfl⟩
  · exact ⟨rfl, rfl⟩

theorem State.setAgent_configuration (s : State) {a : AgentId} {x : AgentRecord}
    (clearance : x.clearance = (s.agent a).clearance) (quota : x.quota = (s.agent a).quota) :
    (s.setAgent a x).configuration = s.configuration := by
  refine State.configuration_congr (fun _ => rfl) (fun _ => ⟨rfl, rfl⟩) (fun b => ?_) rfl ⟨rfl, rfl⟩
  rw [State.agent_setAgent]
  split
  · next h => rw [clearance, quota, h]; exact ⟨rfl, rfl⟩
  · exact ⟨rfl, rfl⟩

/-! ### No shared operation writes it -/

@[simp] theorem State.post_configuration (s : State) (k : NoticeKind) (i : SlotId) :
    (s.post k i).configuration = s.configuration := by unfold State.post; (repeat' split) <;> rfl

@[simp] theorem State.setMode_configuration (s : State) (i : SlotId) (m : Mode) :
    (s.setMode i m).configuration = s.configuration := by unfold State.setMode; split <;> rfl

@[simp] theorem State.loadRecord_configuration (s : State) (i : SlotId) (r : Option Record) :
    (s.loadRecord i r).configuration = s.configuration := (rfl)

@[simp] theorem State.dequeue_configuration (s : State) (t : Target) (i : SlotId) :
    (s.dequeue t i).configuration = s.configuration := by
  cases t with
  | unit u => exact s.setUnit_configuration rfl
  | pool p => exact s.setPool_configuration rfl rfl

@[simp] theorem State.clearMark_configuration (s : State) (u : UnitId) :
    (s.clearMark u).configuration = s.configuration := s.setUnit_configuration rfl

@[simp] theorem State.clearMarkOf_configuration (s : State) (u : UnitId) (i : SlotId) :
    (s.clearMarkOf u i).configuration = s.configuration := by
  unfold State.clearMarkOf
  split
  · exact s.clearMark_configuration u
  · rfl

@[simp] theorem State.leavePlace_configuration (s : State) (i : SlotId) (r : Record) :
    (s.leavePlace i r).configuration = s.configuration := by
  unfold State.leavePlace
  split <;> simp

@[simp] theorem State.grant_configuration (s : State) (own : Option SlotId) (u : UnitId) (i : SlotId) :
    (s.grant own u i).configuration = s.configuration := by
  unfold State.grant
  (repeat' split) <;> simp

@[simp] theorem State.endWalk_configuration (s : State) (a : AgentId) :
    (s.endWalk a).configuration = s.configuration := by
  unfold State.endWalk
  split
  · exact s.setAgent_configuration rfl rfl
  · rfl

@[simp] theorem State.remove_configuration (s : State) (i : SlotId) (r : Record) :
    (s.remove i r).configuration = s.configuration := by
  rw [State.remove, State.endWalk_configuration, State.loadRecord_configuration]
  exact s.leavePlace_configuration i r

@[simp] theorem State.markSpent_configuration (s : State) (i : SlotId) (r : Record) (cause : SpentCause) :
    (s.markSpent i r cause).configuration = s.configuration := by
  simp [State.markSpent]

@[simp] theorem State.markRecalled_configuration (s : State) (i : SlotId) (r : Record) (u : UnitId) (d : Nat) :
    (s.markRecalled i r u d).configuration = s.configuration := by
  simp [State.markRecalled]

@[simp] theorem State.completeDrain_configuration (s : State) (u : UnitId) :
    (s.completeDrain u).configuration = s.configuration := by
  unfold State.completeDrain
  split
  · exact s.setUnit_configuration rfl
  · rfl

/-- The walk's start writes the agent's state, its station, its notices and SPENT records, and ends with the walk's
end. -/
@[simp] theorem State.beginWalk_configuration (s : State) (a : AgentId) :
    (s.beginWalk a).configuration = s.configuration := by
  unfold State.beginWalk
  dsimp only
  rw [State.endWalk_configuration, foldl_free_same State.configuration fun _ _ => rfl]
  exact s.setAgent_configuration rfl rfl

@[simp] theorem State.passOn_configuration (s : State) (own : Option SlotId) (t : Target) :
    (s.passOn own t).configuration = s.configuration :=
  s.passOn_same State.configuration (by simp) (fun s _ _ => s.setUnit_configuration rfl)
    (fun s _ _ => s.setPool_configuration rfl rfl) (by simp) own t

/-- RESET_LIVE keeps the configuration state (R168). -/
theorem State.cleared_configuration (s : State) : s.cleared.configuration = s.configuration :=
  State.configuration_congr (fun u => by rw [State.cleared_unit])
    (fun p => by rw [State.cleared_pool]; exact ⟨rfl, rfl⟩) (fun a => by rw [State.cleared_agent]; exact ⟨rfl, rfl⟩)
    rfl ⟨rfl, rfl⟩

/-- A hardware reset keeps the configuration state of a frozen part (R167, R169). -/
theorem State.hardwareReset_configuration {s : State} (frozen : s.frozen = true) :
    s.hardwareReset.configuration = s.configuration := by
  have kept {α : Type} (x y : α) : s.keepIfFrozen x y = x := if_pos frozen
  exact State.configuration_congr (fun u => by rw [State.hardwareReset_unit, kept])
    (fun p => by rw [State.hardwareReset_pool, kept, kept]; exact ⟨rfl, rfl⟩)
    (fun a => by rw [State.hardwareReset_agent, kept, kept]; exact ⟨rfl, rfl⟩)
    (kept _ _) ⟨kept _ _, kept _ _⟩

/-! ### FREEZE (R167) -/

/-- The primitive changes that write the configuration state. -/
inductive Configures : State → State → Prop where
  | setTick (s : State) (source : TickSource) (divider : Nat) (low : 16 ≤ divider) (high : divider ≤ 65536) :
      Configures s (s.setTimer { s.timer with source := source, divider := divider, count := 0, reference := none })
  | configureUnit (s : State) (u : UnitId) (config : UnitConfig)
      (capacity : 1 ≤ config.capacity ∧ config.capacity ≤ 4) (grace : config.grace ≤ 255)
      (limit : ∀ l, config.limit = some l → 1 ≤ l ∧ l ≤ 4095) :
      Configures s (s.setUnit u { s.unit u with config := config })
  | configurePool (s : State) (p : PoolId) (order : OrderMode) (rotate : Bool) :
      Configures s (s.setPool p { s.pool p with order := order, rotate := rotate })
  | ceiling (s : State) (c : Nat) (range : c ≤ 64) : Configures s { s with ceiling := c }
  | clearance (s : State) (a : AgentId) (yes : Bool) : Configures s (s.setAgent a { s.agent a with clearance := yes })
  | quota (s : State) (a : AgentId) (q : Nat) : Configures s (s.setAgent a { s.agent a with quota := q })
  | reset (s : State) : Configures s s.hardwareReset

/-- A primitive change writes the configuration state only where the part is not frozen. -/
theorem Primitive.configuration {s t : State} (change : Primitive s t) :
    t.configuration = s.configuration ∨ s.frozen = false ∧ Configures s t := by
  cases change with
  | attach => exact .inl (s.setAgent_configuration rfl rfl)
  | hold => exact .inl (s.setAgent_configuration rfl rfl)
  | grant own u i => exact .inl (s.grant_configuration own u i)
  | unitBottom => exact .inl (s.setUnit_configuration rfl)
  | poolBottom => exact .inl (s.setPool_configuration rfl rfl)
  | upgrade => exact .inl (by simp)
  | clearMark => exact .inl (s.setUnit_configuration rfl)
  | setMark => exact .inl (s.setUnit_configuration rfl)
  | upgradeAlone => exact .inl (by simp)
  | downgrade => exact .inl (by simp)
  | remove => exact .inl (by simp)
  | readSpent => exact .inl (State.remove_configuration _ _ _)
  | spend => exact .inl (by simp)
  | markRecalled => exact .inl (by simp)
  | completeDrain => exact .inl (by simp)
  | endWalk => exact .inl (by simp)
  | beginWalk => exact .inl (by simp)
  | timer t source divider =>
    exact .inl (State.configuration_congr (fun _ => rfl) (fun _ => ⟨rfl, rfl⟩) (fun _ => ⟨rfl, rfl⟩) rfl
      ⟨source, divider⟩)
  | setTick source divider thawed low high => exact .inr ⟨thawed, .setTick s source divider low high⟩
  | configureUnit u config thawed _ capacity grace limit =>
    exact .inr ⟨thawed, .configureUnit s u config capacity grace limit⟩
  | configurePool p order rotate thawed => exact .inr ⟨thawed, .configurePool s p order rotate⟩
  | ceiling c thawed range => exact .inr ⟨thawed, .ceiling s c range⟩
  | clearance a yes thawed => exact .inr ⟨thawed, .clearance s a yes⟩
  | quota a q thawed => exact .inr ⟨thawed, .quota s a q⟩
  | openUnit => exact .inl (s.setUnit_configuration rfl)
  | startDrain => exact .inl (s.setUnit_configuration rfl)
  | resetLive => exact .inl s.cleared_configuration
  | hardwareReset =>
    cases frozen : s.frozen with
    | false => exact .inr ⟨rfl, .reset s⟩
    | true => exact .inl (State.hardwareReset_configuration frozen)
  | _ => exact .inl rfl

/-- No primitive change clears the frozen flag. -/
theorem Primitive.keeps_frozen {s t : State} (change : Primitive s t) (frozen : s.frozen = true) : t.frozen = true := by
  cases change with
  | grant => simpa using frozen
  | upgrade => simpa using frozen
  | upgradeAlone => simpa using frozen
  | downgrade => simpa using frozen
  | remove => simpa using frozen
  | readSpent => simpa using frozen
  | spend => simpa using frozen
  | markRecalled => simpa using frozen
  | completeDrain => simpa using frozen
  | endWalk => simpa using frozen
  | beginWalk a => refine (s.beginWalk_same State.frozen a ?_ ?_ ?_ ?_ ?_).trans frozen <;> intros <;> simp
  | freeze => rfl
  | _ => exact frozen

/-- A frozen part keeps its configuration state. -/
theorem Primitive.keeps_configuration {s t : State} (change : Primitive s t) (frozen : s.frozen = true) :
    t.frozen = true ∧ t.configuration = s.configuration := by
  refine ⟨change.keeps_frozen frozen, change.configuration.resolve_right ?_⟩
  rintro ⟨thawed, _⟩
  exact nomatch frozen.symm.trans thawed

theorem Allocation.keeps_configuration {s t : State} (new : Allocation s t) (frozen : s.frozen = true) :
    t.frozen = true ∧ t.configuration = s.configuration := by
  obtain ⟨i, a, mode, x, requested, waitLimit⟩ := new
  refine ⟨by simpa using frozen, ?_⟩
  cases x with
  | unit u => exact State.setUnit_configuration _ rfl
  | pool p => exact State.setPool_configuration _ rfl rfl

/-- A frozen part stays frozen, with its configuration state, through every command and event but POWER_ON. -/
theorem exec_keeps_configuration {c : Instr} {s t : State} (powered : ∀ x, c ≠ .powerOn x) (frozen : s.frozen = true)
    (run : exec c s = .next t) : t.frozen = true ∧ t.configuration = s.configuration := by
  obtain ⟨t', run', power | steps⟩ := exec_steps c s
  · obtain ⟨x, power⟩ := power
    exact absurd power (powered x)
  · cases run.symm.trans run'
    refine steps.keeps (P := fun p => p.frozen = true ∧ p.configuration = s.configuration)
      (fun _ _ change kept => ?_) (fun _ _ new kept => ?_) ⟨frozen, rfl⟩
    · obtain ⟨still, same⟩ := change.keeps_configuration kept.1
      exact ⟨still, same.trans kept.2⟩
    · obtain ⟨still, same⟩ := new.keeps_configuration kept.1
      exact ⟨still, same.trans kept.2⟩

section Frozen

variable {aid : AgentId} {s : State}

theorem setBand_frozen (sup : Supervises aid s) (frozen : s.frozen = true) :
    RefusesControl (.setBand aid) s 0x23 Reason.frozen 0 := by
  rw [RefusesControl, exec_setBand, execSetBand, atControlStation_supervises sup]
  simp [frozen]

theorem setClearance_frozen (sup : Supervises aid s) (frozen : s.frozen = true) :
    RefusesControl (.setClearance aid) s 0x24 Reason.frozen 0 := by
  rw [RefusesControl, exec_setClearance, execSetClearance, atControlStation_supervises sup]
  simp [frozen]

theorem setQuota_frozen (sup : Supervises aid s) (frozen : s.frozen = true) :
    RefusesControl (.setQuota aid) s 0x25 Reason.frozen 0 := by
  rw [RefusesControl, exec_setQuota, execSetQuota, atControlStation_supervises sup]
  simp [frozen]

theorem setTick_frozen (sup : Supervises aid s) (frozen : s.frozen = true) :
    RefusesControl (.setTick aid) s 0x26 Reason.frozen 0 := by
  rw [RefusesControl, exec_setTick, execSetTick, atControlStation_supervises sup]
  simp [frozen]

end Frozen

theorem freeze_answers {aid : AgentId} {s : State} (sup : Supervises aid s) :
    exec (.freeze aid) s =
      .next { s.repliedControl 0x30 (.ok (place 0 1 (flagNo s.frozen)) 0) with frozen := true } := by
  rw [exec_freeze, execFreeze, atControlStation_supervises sup]
  rfl

/-- Settles O40: every primitive change of a frozen part keeps the flag and the configuration state. -/
theorem freeze : Obligations.Freeze := by
  refine ⟨fun aid s sup => freeze_answers sup, fun aid s sup frozen c code listed => ?_,
    fun c s t => exec_keeps_configuration⟩
  simp only [List.mem_cons, Prod.mk.injEq, List.not_mem_nil, or_false] at listed
  rcases listed with ⟨rfl, rfl⟩ | ⟨rfl, rfl⟩ | ⟨rfl, rfl⟩ | ⟨rfl, rfl⟩ | ⟨rfl, rfl⟩ | ⟨rfl, rfl⟩
  · exact configureUnit_frozen sup frozen
  · exact configurePool_frozen sup frozen
  · exact setBand_frozen sup frozen
  · exact setClearance_frozen sup frozen
  · exact setQuota_frozen sup frozen
  · exact setTick_frozen sup frozen

end Sys2Proof.Machine
end

section
/-! SUPPORT. The band (spec/09 R155 to R157): the unit that a record occupies, what the test of SET_BAND and
SET_CLEARANCE finds, and the statement that no step puts an agent without clearance into the band. -/

namespace Sys2Proof.Machine

/-! ### The unit that a record occupies -/

/-- The unit that a HELD or RECALLED record holds, or that a WAITING record waits for (R155). -/
def Record.occupying (r : Record) : Option UnitId :=
  match r.standing with
  | .waiting (.unit u) _ _ => some u
  | .held u _ _ => some u
  | .recalled u _ _ => some u
  | .waiting (.pool _) _ _ | .spent .. => none

theorem Record.occupying_eq_some {r : Record} {u : UnitId} :
    r.occupying = some u ↔ r.holding = some u ∨ ∃ d c, r.standing = .waiting (.unit u) d c := by
  unfold Record.occupying Record.holding
  cases r.standing with
  | waiting x => cases x <;> simp
  | _ => simp

theorem Record.occupying_of_held {r : Record} {u : UnitId} {d : Nat} {c : Option Nat}
    (holds : r.standing = .held u d c) : r.occupying = some u := by
  simp [Record.occupying, holds]

/-- A lower countdown leaves a record on its unit. -/
theorem Record.occupying_lowered (r : Record) (c : Nat) :
    Record.occupying { r with standing := r.standing.lowered c } = r.occupying := by
  unfold Record.occupying Standing.lowered
  cases r.standing with
  | waiting x => cases x <;> rfl
  | _ => rfl

/-- The waits of a record that occupies a unit without holding it. -/
theorem Record.isWaiting_and_target_iff {r : Record} {u : UnitId} :
    r.isWaiting = true ∧ r.target = .unit u ↔ ∃ d c, r.standing = .waiting (.unit u) d c := by
  unfold Record.isWaiting Record.target
  cases r.standing with
  | waiting x => cases x <;> simp [Standing.claim, Claim.target]
  | _ => simp

theorem State.occupies_iff (s : State) (a : AgentId) (u : UnitId) :
    Occupies s a u ↔ ∃ i r, s.record i = some r ∧ r.agent = a ∧ r.occupying = some u := by
  simp only [Occupies, Record.isWaiting_and_target_iff, ← Record.occupying_eq_some, Option.mem_def]

theorem bandLaw_iff (s : State) :
    BandLaw s ↔ ∀ i r u, s.record i = some r → r.occupying = some u → s.bandPermits r.agent u = true := by
  simp only [BandLaw, Record.occupying_eq_some]

/-! ### The test of SET_BAND and SET_CLEARANCE (R156, R157) -/

/-- Where the queues are in order, the test finds exactly the records that occupy the unit. -/
theorem QueueLaw.occupiedBy_iff {s : State} (law : QueueLaw s) (u : UnitId) (test : AgentId → Bool) :
    s.occupiedBy u test = true ↔
      ∃ i r, s.record i = some r ∧ r.occupying = some u ∧ test r.agent = true := by
  have queued (i : SlotId) : i ∈ (s.unit u).queue ↔ ∃ a, s.wait i = some (a, .unit u) :=
    law.mem_queueAt (x := .unit u)
  simp only [State.occupiedBy, Bool.or_eq_true, List.any_eq_true, State.mem_holders, queued, Record.occupying_eq_some]
  constructor
  · rintro (⟨i, ⟨r, found, holds⟩, named⟩ | ⟨i, ⟨a, waits⟩, named⟩)
    · exact ⟨i, r, found, .inl holds, by simpa [State.owner, found] using named⟩
    · obtain ⟨r, found, _, standing⟩ := State.wait_eq_some.mp waits
      rw [found, Option.any_some, Bool.and_eq_true] at named
      exact ⟨i, r, found, .inr standing, named.2⟩
  · rintro ⟨i, r, found, holds | ⟨d, c, waits⟩, named⟩
    · exact .inl ⟨i, ⟨r, found, holds⟩, by simpa [State.owner, found] using named⟩
    · exact .inr ⟨i, ⟨r.agent, State.wait_eq_some.mpr ⟨r, found, rfl, d, c, waits⟩⟩, by
        simpa [found, Record.isWaiting, waits] using named⟩

theorem QueueLaw.unoccupied {s : State} (law : QueueLaw s) {u : UnitId} {test : AgentId → Bool}
    (clear : s.occupiedBy u test = false) {i : SlotId} {r : Record} (found : s.record i = some r)
    (occupies : r.occupying = some u) : test r.agent = false := by
  by_contra named
  rw [Bool.not_eq_false] at named
  rw [(law.occupiedBy_iff u test).mpr ⟨i, r, found, occupies, named⟩] at clear
  cases clear

/-! ### Every step keeps the band (R155) -/

/-- A record occupies a unit after a change where it did before, or where the change granted the unit to it. -/
theorem RecordChange.occupying {s : State} {j : SlotId} {r r' : Record} (change : RecordChange s j r r') {u : UnitId}
    (occupies : r'.occupying = some u) : r.occupying = some u ∨ s.mayBeGranted r.agent u = true := by
  cases change with
  | same => exact .inl occupies
  | granted v x d c waits opened eligible => cases occupies; exact .inr eligible
  | exclusive => exact .inl occupies
  | shared => exact .inl occupies
  | depth v d d' c holds => cases occupies; exact .inl (Record.occupying_of_held holds)
  | renewed v d c requested holds => cases occupies; exact .inl (Record.occupying_of_held holds)
  | spent => cases occupies
  | recalled v d c holds => cases occupies; exact .inl (Record.occupying_of_held holds)
  | lowered c => exact .inl (r.occupying_lowered _ ▸ occupies)

/-- What stands after a change was permitted before it. -/
theorem BandLaw.before {s t : State} (law : BandLaw s) (change : Primitive s t) {i : SlotId} {r' : Record} {u : UnitId}
    (found : t.record i = some r') (occupies : r'.occupying = some u) : s.bandPermits r'.agent u = true := by
  obtain ⟨r, before, rewritten⟩ := change.record_change found
  rw [rewritten.agent]
  rcases rewritten.occupying occupies with stood | granted
  · exact (bandLaw_iff s).mp law i r u before stood
  · obtain ⟨_, _, permitted⟩ := (s.mayBeGranted_iff r.agent u).mp granted
    exact (s.bandPermits_iff r.agent u).mpr permitted

/-- A change that leaves the ceiling and the clearances keeps the law. -/
theorem BandLaw.of_permits {s t : State} (law : BandLaw s) (change : Primitive s t)
    (permits : ∀ a u, t.bandPermits a u = s.bandPermits a u) : BandLaw t :=
  (bandLaw_iff t).mpr fun _ r u found occupies => (permits r.agent u).trans (law.before change found occupies)

theorem State.bandPermits_congr {s t : State} (ceiling : t.ceiling = s.ceiling) (supervisor : t.supervisor = s.supervisor)
    {a : AgentId} (clearance : (t.agent a).clearance = (s.agent a).clearance) (u : UnitId) :
    t.bandPermits a u = s.bandPermits a u := by
  simp only [State.bandPermits, State.inBand, State.clearance, ceiling, supervisor, clearance]

theorem State.setAgent_bandPermits (s : State) {a : AgentId} {x : AgentRecord}
    (same : x.clearance = (s.agent a).clearance) (b : AgentId) (u : UnitId) :
    (s.setAgent a x).bandPermits b u = s.bandPermits b u := by
  refine State.bandPermits_congr (s := s) (t := s.setAgent a x) rfl rfl ?_ u
  rw [State.agent_setAgent]
  split
  · next h => rw [same, h]
  · rfl

theorem bandLaw_of_free {s : State} (free : ∀ i, s.record i = none) : BandLaw s :=
  fun i _ _ found => nomatch (free i).symm.trans found

/-- The ceiling falls only over units that no agent without clearance occupies, and a clearance is taken only where its
agent occupies no unit of the band. -/
theorem Primitive.keeps_bandLaw {s t : State} (change : Primitive s t) (queues : QueueLaw s) (law : BandLaw s) :
    BandLaw t := by
  have before {i : SlotId} {r : Record} {u : UnitId} (found : t.record i = some r) (occupies : r.occupying = some u) :=
    law.before change found occupies
  have change' := change
  cases change with
  | attach => exact law.of_permits change' (s.setAgent_bandPermits rfl)
  | hold => exact law.of_permits change' (s.setAgent_bandPermits rfl)
  | quota => exact law.of_permits change' (s.setAgent_bandPermits rfl)
  | remove i r => exact law.of_permits change' fun a => State.bandPermits_congr (by simp) (by simp) (by
      rw [State.remove_agent]; split <;> rfl)
  | readSpent b n rest r => exact law.of_permits change' fun a => State.bandPermits_congr (by simp) (by simp) (by
      rw [State.remove_agent]; split <;> rfl)
  | endWalk b => exact law.of_permits change' fun a => State.bandPermits_congr (by simp) (by simp) (by
      rw [State.endWalk_agent]; split <;> rfl)
  | beginWalk b =>
    refine law.of_permits change' fun a => State.bandPermits_congr ?_ ?_ ?_
    · refine s.beginWalk_same State.ceiling b ?_ ?_ ?_ ?_ ?_ <;> intros <;> simp
    · refine s.beginWalk_same State.supervisor b ?_ ?_ ?_ ?_ ?_ <;> intros <;> simp
    · rw [State.beginWalk_agent]; (repeat' split) <;> rfl
  | grant => exact law.of_permits change' (by simp)
  | upgrade => exact law.of_permits change' (by simp)
  | upgradeAlone => exact law.of_permits change' (by simp)
  | downgrade => exact law.of_permits change' (by simp)
  | spend => exact law.of_permits change' (by simp)
  | markRecalled => exact law.of_permits change' (by simp)
  | completeDrain => exact law.of_permits change' (by simp)
  | resetLive => exact bandLaw_of_free s.cleared_record
  | hardwareReset => exact bandLaw_of_free s.hardwareReset_record
  | ceiling c _ _ clear =>
    refine (bandLaw_iff _).mpr fun i r u found occupies => ?_
    have permitted := (s.bandPermits_iff r.agent u).mp (before found occupies)
    refine (State.bandPermits_iff _ r.agent u).mpr ?_
    by_cases below : u.val < c
    · exact .inl below
    · refine .inr (permitted.elim (fun under => ?_) id)
      rcases clear with rises | clear
      · omega
      · have cleared := queues.unoccupied (clear u (by omega) under) found occupies
        rwa [Bool.not_eq_false'] at cleared
  | clearance a yes _ clear =>
    refine (bandLaw_iff _).mpr fun i r u found occupies => ?_
    have permitted := before found occupies
    by_cases named : r.agent = a
    · refine (State.bandPermits_iff _ r.agent u).mpr ?_
      by_cases below : u.val < s.ceiling
      · exact .inl below
      · rcases clear with rfl | clear
        · exact .inr ((State.clearance_iff _ r.agent).mpr (.inr (by rw [named, State.agent_setAgent_self])))
        · simpa [named] using queues.unoccupied (clear u (by omega)) found occupies
    · refine (State.bandPermits_congr ?_ ?_ ?_ u).trans permitted <;> simp [State.agent_setAgent_of_ne, named]
  | _ => exact law.of_permits change' fun _ _ => rfl

/-- An allocation is permitted on its unit. -/
theorem Allocation.keeps_bandLaw {s t : State} (new : Allocation s t) (law : BandLaw s) : BandLaw t := by
  obtain ⟨i, a, mode, x, requested, waitLimit, _, _, _, _, _, onUnit, _⟩ := new
  refine (bandLaw_iff _).mpr fun j r u found occupies => ?_
  rw [State.allocate_bandPermits]
  rw [State.allocate_record] at found
  split at found
  · cases found
    cases x with
    | unit v => cases occupies; obtain ⟨_, permitted, _⟩ := onUnit u rfl; exact permitted
    | pool p => cases occupies
  · exact (bandLaw_iff s).mp law j r u found occupies

/-- Settles O57: every primitive change and every allocation keep the band where the queues are in order, and power-on
leaves no record. -/
theorem bandKept : Obligations.BandKept := by
  intro s t law queues run
  have kept := step_keeps (P := fun s => QueueLaw s ∧ BandLaw s)
    (fun _ _ change before => ⟨change.keeps_queueLaw before.1, change.keeps_bandLaw before.1 before.2⟩)
    (fun _ _ new before => ⟨new.keeps_queueLaw before.1, new.keeps_bandLaw before.2⟩)
    (fun straps s _ => ⟨?_, bandLaw_of_free (State.afterPowerOn_record straps)⟩)
    (fun _ _ before => before) s t ⟨queues, law⟩ run
  · exact kept.2
  · exact queueLaw_of_empty (State.afterPowerOn_record straps)
      (fun u => congrArg UnitRecord.queue (State.afterPowerOn_unit straps u))
      fun p => congrArg PoolRecord.queue (State.afterPowerOn_pool straps p)

end Sys2Proof.Machine
end

section
/-! SUPPORT. The ranges (spec/01 Table 1-1, spec/06 Table 6-3, R23, R25, R108, R109, R111): what each of the five range
laws is read from, that primitive changes and allocations keep them, and the statement that every step does. -/

namespace Sys2Proof.Machine

/-! ### The configuration fields (Table 1-1, Table 9-2) -/

/-- The configuration fields of a unit are in range. -/
def UnitConfig.inRange (c : UnitConfig) : Prop :=
  1 ≤ c.capacity ∧ c.capacity ≤ 4 ∧ c.grace ≤ 255 ∧ ∀ l, c.limit = some l → 1 ≤ l ∧ l ≤ 4095

theorem rangeLaw_iff (s : State) :
    RangeLaw s ↔ (∀ u, (s.unit u).config.inRange) ∧ s.ceiling ≤ 64 ∧ 16 ≤ s.timer.divider ∧ s.timer.divider ≤ 65536 :=
  Iff.rfl

theorem State.config_of_configuration {s t : State} (same : t.configuration = s.configuration) (u : UnitId) :
    (t.unit u).config = (s.unit u).config := by
  have units : t.units.map UnitRecord.config = s.units.map UnitRecord.config := congrArg Configuration.units same
  simpa [State.unit, Vector.get_eq_getElem] using congrArg (·[u]) units

theorem RangeLaw.of_configuration {s t : State} (law : RangeLaw s) (same : t.configuration = s.configuration) :
    RangeLaw t := by
  have ceiling : t.ceiling = s.ceiling := congrArg Configuration.ceiling same
  have divider : t.timer.divider = s.timer.divider := congrArg Configuration.divider same
  obtain ⟨units, rest⟩ := (rangeLaw_iff s).mp law
  refine (rangeLaw_iff t).mpr ⟨fun u => ?_, ?_⟩
  · rw [State.config_of_configuration same]; exact units u
  · rw [ceiling, divider]; exact rest

theorem UnitConfig.default_inRange : UnitConfig.default.inRange := by
  refine ⟨by decide, by decide, by decide, ?_⟩
  rintro l ⟨⟩

/-- The checks of the commands that write the configuration establish its ranges (R11, R110, R156). -/
theorem Configures.keeps_rangeLaw {s t : State} (change : Configures s t) (law : RangeLaw s) : RangeLaw t := by
  obtain ⟨units, ceiling, divider⟩ := (rangeLaw_iff s).mp law
  refine (rangeLaw_iff t).mpr ?_
  cases change with
  | setTick source d low high => exact ⟨units, ceiling, low, high⟩
  | configureUnit u config capacity grace limit =>
    refine ⟨fun v => ?_, ceiling, divider⟩
    rw [State.unit_setUnit]
    split
    · exact ⟨capacity.1, capacity.2, grace, limit⟩
    · exact units v
  | configurePool => exact ⟨units, ceiling, divider⟩
  | ceiling c range => exact ⟨units, range, divider⟩
  | clearance => exact ⟨units, ceiling, divider⟩
  | quota => exact ⟨units, ceiling, divider⟩
  | reset =>
    cases frozen : s.frozen with
    | true => exact law.of_configuration (State.hardwareReset_configuration frozen)
    | false =>
      have defaulted {α : Type} (x y : α) : s.keepIfFrozen x y = y := if_neg (by simp [frozen])
      refine ⟨fun u => ?_, ?_, ?_⟩
      · rw [State.hardwareReset_unit, defaulted]; exact UnitConfig.default_inRange
      · exact (congrArg (· ≤ 64) (defaulted s.ceiling Config.defaultCeiling)).mpr (by decide)
      · exact (congrArg (fun d => 16 ≤ d ∧ d ≤ 65536) (defaulted s.timer.divider Config.defaultDivider)).mpr (by decide)

theorem Primitive.keeps_rangeLaw {s t : State} (change : Primitive s t) (law : RangeLaw s) : RangeLaw t :=
  change.configuration.elim law.of_configuration fun written => written.2.keeps_rangeLaw law

/-! ### Countdowns (R25, Table 6-3) -/

/-- An effective duration is at least 1 and at most 4095 ticks (R55, Table 3-4). -/
theorem effectiveDuration_inRange {requested : Nat} {limit : Option Nat} (range : requested ≤ 4095)
    (limits : ∀ l, limit = some l → 1 ≤ l ∧ l ≤ 4095) {n : Nat} (h : effectiveDuration requested limit = some n) :
    1 ≤ n ∧ n ≤ 4095 := by
  unfold effectiveDuration at h
  split at h
  · next l =>
    obtain ⟨low, high⟩ := limits l rfl
    cases h
    split <;> omega
  · split at h
    · cases h
    · cases h; omega

/-- A lower countdown that is not yet 0 stays in the range of its state. -/
theorem Standing.countdownInRange_lowered {x : Standing} {c : Nat} (present : x.countdown = some c) (more : 1 < c)
    (range : x.countdownInRange) : (x.lowered (c - 1)).countdownInRange := by
  cases x with
  | waiting y d k =>
    obtain ⟨requested, limits⟩ := range
    refine ⟨requested, ?_⟩
    rintro _ ⟨⟩
    have := limits c present
    omega
  | held u d k =>
    rintro _ ⟨⟩
    have := range c present
    omega
  | recalled u d g =>
    cases present
    obtain ⟨_, high⟩ := range
    exact ⟨by omega, by omega⟩
  | spent => trivial

theorem RecordChange.keeps_countdownInRange {s : State} {j : SlotId} {r r' : Record} (change : RecordChange s j r r')
    (ranges : RangeLaw s) (range : r.standing.countdownInRange) : r'.standing.countdownInRange := by
  obtain ⟨units, _⟩ := (rangeLaw_iff s).mp ranges
  cases change with
  | same => exact range
  | granted u x d c waits =>
    obtain ⟨_, _, _, limits⟩ := units u
    rw [waits] at range
    exact fun n h => effectiveDuration_inRange range.1 limits h
  | exclusive => exact range
  | shared => exact range
  | depth u d d' c holds => rw [holds] at range; exact range
  | renewed u d c requested holds short =>
    obtain ⟨_, _, _, limits⟩ := units u
    exact fun n h => effectiveDuration_inRange short limits h
  | spent => trivial
  | recalled u d c holds grace =>
    obtain ⟨_, _, high, _⟩ := units u
    exact ⟨Nat.pos_of_ne_zero grace, high⟩
  | lowered c present more => exact Standing.countdownInRange_lowered present more range

theorem Primitive.keeps_countdownLaw {s t : State} (change : Primitive s t) (ranges : RangeLaw s) (law : CountdownLaw s) :
    CountdownLaw t := by
  intro j r' found
  obtain ⟨r, before, rewritten⟩ := change.record_change found
  exact rewritten.keeps_countdownInRange ranges (law j r before)

/-- A request whose arguments are in range starts a wait in range (R45, R53). -/
theorem Allocation.keeps_countdownLaw {s t : State} (new : Allocation s t) (law : CountdownLaw s) : CountdownLaw t := by
  obtain ⟨i, a, mode, x, requested, waitLimit, _, _, duration, limit⟩ := new
  intro j r found
  rw [State.allocate_record] at found
  split at found
  · cases found
    refine ⟨duration, fun n h => ?_⟩
    split at h
    · cases h
    · cases h; omega
  · exact law j r found

/-! ### Kinds (R23) -/

/-- What R23 says of one record. -/
def Record.kindStands (r : Record) : Prop :=
  (∀ p d c, r.standing = .waiting (.pool p) d c → r.mode = .exclusive) ∧
    ∀ k c, r.standing = .spent k c → k.mayEndAs c

theorem Record.kindStands_of_held {r : Record} {u : UnitId} {d : Nat} {c : Option Nat}
    (holds : r.standing = .held u d c) : r.kindStands := by
  constructor <;> intros <;> simp_all

theorem RecordChange.keeps_kindStands {s : State} {j : SlotId} {r r' : Record} (change : RecordChange s j r r')
    (stands : r.kindStands) : r'.kindStands := by
  obtain ⟨exclusive, cause⟩ := stands
  cases change with
  | same => exact ⟨exclusive, cause⟩
  | granted => exact Record.kindStands_of_held rfl
  | exclusive => exact ⟨fun _ _ _ _ => rfl, cause⟩
  | shared u holds =>
    obtain ⟨d, c, holds⟩ := (r.isHeldOn_iff u).mp holds
    exact Record.kindStands_of_held holds
  | depth => exact Record.kindStands_of_held rfl
  | renewed => exact Record.kindStands_of_held rfl
  | spent cause _ _ fits =>
    refine ⟨fun _ _ _ h => (nomatch h), ?_⟩
    rintro k c ⟨⟩
    exact fits
  | recalled => exact ⟨fun _ _ _ h => (nomatch h), fun _ _ h => nomatch h⟩
  | lowered c =>
    cases holds : r.standing with
    | waiting x d k =>
      refine ⟨?_, fun _ _ h => nomatch h⟩
      rintro p _ _ ⟨⟩
      exact exclusive p d k holds
    | held u d k => exact Record.kindStands_of_held rfl
    | recalled => exact ⟨fun _ _ _ h => (nomatch h), fun _ _ h => nomatch h⟩
    | spent k e =>
      refine ⟨fun _ _ _ h => (nomatch h), ?_⟩
      rintro _ _ ⟨⟩
      exact cause k e holds

theorem Primitive.keeps_kindLaw {s t : State} (change : Primitive s t) (law : KindLaw s) : KindLaw t := by
  intro j r' found
  obtain ⟨r, before, rewritten⟩ := change.record_change found
  exact rewritten.keeps_kindStands (law j r before)

/-- A request for a unit of a pool is EXCLUSIVE (R53). -/
theorem Allocation.keeps_kindLaw {s t : State} (new : Allocation s t) (law : KindLaw s) : KindLaw t := by
  obtain ⟨i, a, mode, x, requested, waitLimit, _, _, _, _, _, _, onPool⟩ := new
  intro j r found
  rw [State.allocate_record] at found
  split at found
  · cases found
    refine ⟨?_, fun _ _ h => nomatch h⟩
    rintro p _ _ ⟨⟩
    exact (onPool p rfl).1
  · exact law j r found

/-! ### The divider count and the TKIN reference (R108, R109) -/

/-- Two timers with the same setup, count and reference. -/
structure Timer.SameSetup (x y : Timer) : Prop where
  source : y.source = x.source
  divider : y.divider = x.divider
  count : y.count = x.count
  reference : y.reference = x.reference

theorem Timer.SameSetup.rfl {x : Timer} : x.SameSetup x := ⟨.refl _, .refl _, .refl _, .refl _⟩

theorem Timer.sameSetup_spoil (x : Timer) (i : SlotId) : x.SameSetup (x.spoil i) := ⟨rfl, rfl, rfl, rfl⟩

theorem Timer.sameSetup_of_eq {x y : Timer} (same : y = x) : x.SameSetup y := same ▸ .rfl

theorem Timer.sameSetup_of_spoil {x y : Timer} {i : SlotId} (same : y = x.spoil i) : x.SameSetup y :=
  same ▸ x.sameSetup_spoil i

theorem TimerLaw.of_sameSetup {s t : State} (law : TimerLaw s) (same : s.timer.SameSetup t.timer) : TimerLaw t := by
  unfold TimerLaw
  rw [same.source, same.divider, same.count, same.reference]
  exact law

theorem State.beginWalk_timer_same {α : Type} (f : Timer → α) (spoil : ∀ x i, f (Timer.spoil x i) = f x) (s : State)
    (a : AgentId) : f (s.beginWalk a).timer = f s.timer :=
  s.beginWalk_same (fun s => f s.timer) a (fun _ _ => rfl) (fun _ _ => rfl) (fun _ _ => rfl) (fun s i => spoil s.timer i)
    fun s => congrArg f (s.endWalk_timer a)

theorem State.beginWalk_sameSetup (s : State) (a : AgentId) : s.timer.SameSetup (s.beginWalk a).timer :=
  ⟨s.beginWalk_timer_same (·.source) (fun _ _ => rfl) a, s.beginWalk_timer_same (·.divider) (fun _ _ => rfl) a,
    s.beginWalk_timer_same (·.count) (fun _ _ => rfl) a, s.beginWalk_timer_same (·.reference) (fun _ _ => rfl) a⟩

theorem Primitive.keeps_timerLaw {s t : State} (change : Primitive s t) (law : TimerLaw s) : TimerLaw t := by
  cases change with
  | grant own u i r x d c found waits =>
    exact law.of_sameSetup (Timer.sameSetup_of_spoil (s.grant_timer own u i r x d c found waits))
  | upgrade => exact law.of_sameSetup (Timer.sameSetup_of_eq (by simp))
  | upgradeAlone => exact law.of_sameSetup (Timer.sameSetup_of_eq (by simp))
  | downgrade => exact law.of_sameSetup (Timer.sameSetup_of_eq (by simp))
  | remove i r => exact law.of_sameSetup (Timer.sameSetup_of_spoil (s.remove_timer i r))
  | readSpent a n rest r =>
    have read : TimerLaw (s.setNotice a { s.notice a with entries := rest }) := law
    exact read.of_sameSetup (Timer.sameSetup_of_spoil (State.remove_timer _ n.handle.slot r))
  | spend i r cause => exact law.of_sameSetup (Timer.sameSetup_of_spoil (s.markSpent_timer i r cause))
  | markRecalled i r u d => exact law.of_sameSetup (Timer.sameSetup_of_spoil (s.markRecalled_timer i r u d))
  | completeDrain u => exact law.of_sameSetup (Timer.sameSetup_of_eq (s.completeDrain_timer u))
  | endWalk a => exact law.of_sameSetup (Timer.sameSetup_of_eq (s.endWalk_timer a))
  | beginWalk a => exact law.of_sameSetup (s.beginWalk_sameSetup a)
  | timer x source divider count reference =>
    obtain ⟨below, internal, pin⟩ := law
    refine ⟨?_, fun other => ?_, fun other => ?_⟩
    · show x.count < x.divider
      omega
    · have other : s.timer.source ≠ .internal := source ▸ other
      rcases count with kept | ⟨running, _⟩
      · exact kept.trans (internal other)
      · exact absurd running other
    · have other : s.timer.source ≠ .pin := source ▸ other
      rcases reference with kept | sampled
      · exact kept.trans (pin other)
      · exact absurd sampled other
  | setTick source divider _ low => exact ⟨by show 0 < divider; omega, fun _ => rfl, fun _ => rfl⟩
  | resetLive => exact law
  | hardwareReset =>
    refine ⟨?_, fun _ => rfl, fun _ => rfl⟩
    show 0 < s.keepIfFrozen s.timer.divider Config.defaultDivider
    unfold State.keepIfFrozen
    split
    · exact Nat.zero_lt_of_lt law.1
    · decide
  | _ => exact law

theorem Allocation.keeps_timerLaw {s t : State} (new : Allocation s t) (law : TimerLaw s) : TimerLaw t := by
  obtain ⟨i, a, mode, x, requested, waitLimit⟩ := new
  exact law.of_sameSetup (Timer.sameSetup_of_eq (by simp))

/-! ### Ticks in flight (R111) -/

/-- The record in slot i has a present countdown. -/
def State.counting (s : State) (i : SlotId) : Bool := (s.record i).any fun r => r.standing.countdown.isSome

theorem State.counting_iff (s : State) (i : SlotId) :
    s.counting i = true ↔ ∃ r, s.record i = some r ∧ r.standing.countdown.isSome = true := by
  simp [State.counting, Option.any_eq_true]

theorem State.counting_congr {s t : State} {i : SlotId} (same : t.record i = s.record i) :
    t.counting i = s.counting i := by
  rw [State.counting, same, State.counting]

theorem arrivalLaw_iff (s : State) :
    ArrivalLaw s ↔ ∀ a, a ∈ s.timer.inFlight → a.stale = false → s.counting a.slot = true := by
  simp only [ArrivalLaw, State.counting_iff]

/-- A live arrival after its slot was spoiled is for another slot. -/
theorem Timer.mem_spoil {x : Timer} {i : SlotId} {a : Arrival} (mem : a ∈ (x.spoil i).inFlight) (live : a.stale = false) :
    a ∈ x.inFlight ∧ a.slot ≠ i := by
  obtain ⟨b, before, rfl⟩ := List.mem_map.mp mem
  split at live
  · cases live
  · next h => rw [if_neg h]; exact ⟨before, h⟩

theorem mem_of_mem_dropArrival {i : SlotId} {a : Arrival} {xs : List Arrival} (mem : a ∈ dropArrival i xs) : a ∈ xs := by
  induction xs with
  | nil => exact mem
  | cons b xs ih =>
    rw [dropArrival] at mem
    split at mem
    · exact List.mem_cons_of_mem b mem
    · rcases List.mem_cons.mp mem with rfl | mem
      · exact List.mem_cons_self
      · exact List.mem_cons_of_mem b (ih mem)

/-- Where every live arrival was in flight before, for a slot whose record still counts, the law is kept. -/
theorem ArrivalLaw.of_fewer {s t : State} (law : ArrivalLaw s)
    (kept : ∀ a, a ∈ t.timer.inFlight → a.stale = false →
      a ∈ s.timer.inFlight ∧ t.counting a.slot = s.counting a.slot) : ArrivalLaw t := by
  refine (arrivalLaw_iff t).mpr fun a mem live => ?_
  obtain ⟨before, counts⟩ := kept a mem live
  exact counts.trans ((arrivalLaw_iff s).mp law a before live)

/-- A change that spoils the one slot it writes. -/
theorem ArrivalLaw.of_spoil {s t : State} (law : ArrivalLaw s) {i : SlotId} (timer : t.timer = s.timer.spoil i)
    (others : ∀ j, j ≠ i → t.record j = s.record j) : ArrivalLaw t := by
  refine law.of_fewer fun a mem live => ?_
  obtain ⟨before, other⟩ := Timer.mem_spoil (timer ▸ mem) live
  exact ⟨before, State.counting_congr (others _ other)⟩

/-- A change that leaves the timer and every countdown's presence. -/
theorem ArrivalLaw.of_counting {s t : State} (law : ArrivalLaw s) (timer : t.timer = s.timer)
    (counts : ∀ i, t.counting i = s.counting i) : ArrivalLaw t :=
  law.of_fewer fun _ mem _ => ⟨timer ▸ mem, counts _⟩

/-- The record in one slot is rewritten with a countdown where it had one. -/
theorem State.counting_rewrite {s t : State} {i : SlotId} {r r' : Record} (found : s.record i = some r)
    (same : r'.standing.countdown.isSome = r.standing.countdown.isSome)
    (record : ∀ j, t.record j = if j = i then some r' else s.record j) (j : SlotId) : t.counting j = s.counting j := by
  rw [State.counting, record]
  split
  · next h => rw [h, State.counting, found, Option.any_some, Option.any_some, same]
  · rfl

@[simp] theorem State.setMode_counting (s : State) (i : SlotId) (m : Mode) (j : SlotId) :
    (s.setMode i m).counting j = s.counting j := by
  rw [State.counting, State.setMode_record]
  split
  · next h => rw [h, State.counting]; cases s.record i <;> rfl
  · rfl

/-- A live arrival after several slots were emptied is for another slot. -/
theorem mem_inFlight_foldl_free {is : List SlotId} {s : State} {a : Arrival}
    (mem : a ∈ (is.foldl (fun s i => s.loadRecord i none) s).timer.inFlight) (live : a.stale = false) :
    a ∈ s.timer.inFlight ∧ a.slot ∉ is := by
  induction is generalizing s with
  | nil => exact ⟨mem, List.not_mem_nil⟩
  | cons i is ih =>
    obtain ⟨before, outside⟩ := ih mem
    obtain ⟨before, other⟩ := Timer.mem_spoil before live
    exact ⟨before, by simp [other, outside]⟩

/-- The walk's start empties the slots of SPENT records, and spoils each. -/
theorem ArrivalLaw.beginWalk {s : State} (law : ArrivalLaw s) (a : AgentId) : ArrivalLaw (s.beginWalk a) := by
  unfold State.beginWalk
  dsimp only
  refine law.of_fewer fun x mem live => ?_
  rw [State.endWalk_timer] at mem
  obtain ⟨before, outside⟩ := mem_inFlight_foldl_free mem live
  refine ⟨before, State.counting_congr ?_⟩
  rw [State.endWalk_record, foldl_free_record, if_neg outside]
  rfl

theorem Primitive.keeps_arrivalLaw {s t : State} (change : Primitive s t) (law : ArrivalLaw s) : ArrivalLaw t := by
  cases change with
  | grant own u i r x d c found waits =>
    refine law.of_spoil (s.grant_timer own u i r x d c found waits) fun j other => ?_
    rw [s.grant_record own u i r x d c found waits, if_neg other]
  | upgrade u i =>
    have cleared : ArrivalLaw (s.clearMark u) := law
    refine cleared.of_counting (by simp) fun j => ?_
    exact (State.counting_congr (State.post_record _ _ _ _)).trans ((s.clearMark u).setMode_counting i .exclusive j)
  | upgradeAlone u i =>
    refine law.of_counting (by simp) fun j => ?_
    exact ((s.clearMarkOf u i).setMode_counting i .exclusive j).trans (State.counting_congr (by simp))
  | downgrade u i => exact law.of_counting (by simp) (s.setMode_counting i .shared)
  | depth i r u d d' c found holds =>
    exact law.of_counting rfl (State.counting_rewrite found (by rw [holds]; rfl) (s.record_writeRecord i _))
  | renew i r u d c requested found holds =>
    refine law.of_spoil (s.loadRecord_timer i _) fun j other => ?_
    rw [State.record_loadRecord, if_neg other]
  | remove i r =>
    refine law.of_spoil (s.remove_timer i r) fun j other => ?_
    rw [State.remove_record, if_neg other]
  | readSpent a n rest r =>
    have read : ArrivalLaw (s.setNotice a { s.notice a with entries := rest }) := law
    refine read.of_spoil (State.remove_timer _ n.handle.slot r) fun j other => ?_
    rw [State.remove_record, if_neg other]
  | spend i r cause =>
    refine law.of_spoil (s.markSpent_timer i r cause) fun j other => ?_
    rw [State.markSpent_record, if_neg other]
  | markRecalled i r u d =>
    refine law.of_spoil (s.markRecalled_timer i r u d) fun j other => ?_
    rw [State.markRecalled_record, if_neg other]
  | completeDrain u => exact law.of_counting (by simp) fun j => State.counting_congr (by simp)
  | endWalk a => exact law.of_counting (by simp) fun j => State.counting_congr (by simp)
  | beginWalk a => exact law.beginWalk a
  | countdown i r c found present =>
    refine law.of_counting rfl (State.counting_rewrite found ?_ (s.record_writeRecord i _))
    cases holds : r.standing with
    | spent => simp [holds, Standing.countdown] at present
    | _ => simp_all [Standing.lowered, Standing.countdown]
  | timer x _ _ _ _ inFlight =>
    rcases inFlight with same | added | ⟨i, dropped⟩
    · exact law.of_fewer fun a mem _ => ⟨same ▸ mem, rfl⟩
    · refine (arrivalLaw_iff _).mpr fun a mem live => ?_
      rcases List.mem_append.mp (added ▸ mem : a ∈ s.timer.inFlight ++ s.reached) with before | reached
      · exact (arrivalLaw_iff s).mp law a before live
      · obtain ⟨j, counts, rfl⟩ := List.mem_map.mp reached
        exact (List.mem_filter.mp counts).2
    · exact law.of_fewer fun a mem _ => ⟨mem_of_mem_dropArrival (dropped ▸ mem), rfl⟩
  | resetLive =>
    refine law.of_fewer fun a mem live => ?_
    obtain ⟨b, _, rfl⟩ := List.mem_map.mp mem
    cases live
  | hardwareReset => exact law.of_fewer fun a mem _ => nomatch mem
  | _ => exact law

/-- A slot that is allocated was FREE, and no live arrival is in flight for it. -/
theorem Allocation.keeps_arrivalLaw {s t : State} (new : Allocation s t) (law : ArrivalLaw s) : ArrivalLaw t := by
  obtain ⟨i, a, mode, x, requested, waitLimit, free⟩ := new
  refine law.of_fewer fun b mem live => ?_
  rw [State.allocate_timer] at mem
  have counts := (arrivalLaw_iff s).mp law b mem live
  refine ⟨mem, State.counting_congr ?_⟩
  rw [State.allocate_record, if_neg]
  rintro rfl
  simp [State.counting, free] at counts

/-! ### The statement -/

/-- The five range laws together. -/
def Ranges (s : State) : Prop := RangeLaw s ∧ CountdownLaw s ∧ TimerLaw s ∧ ArrivalLaw s ∧ KindLaw s

theorem Primitive.keeps_ranges {s t : State} (change : Primitive s t) (laws : Ranges s) : Ranges t := by
  obtain ⟨ranges, countdowns, timer, arrivals, kinds⟩ := laws
  exact ⟨change.keeps_rangeLaw ranges, change.keeps_countdownLaw ranges countdowns, change.keeps_timerLaw timer,
    change.keeps_arrivalLaw arrivals, change.keeps_kindLaw kinds⟩

theorem Allocation.keeps_rangeLaw {s t : State} (new : Allocation s t) (law : RangeLaw s) : RangeLaw t := by
  obtain ⟨i, a, mode, x, requested, waitLimit⟩ := new
  obtain ⟨units, rest⟩ := (rangeLaw_iff s).mp law
  refine (rangeLaw_iff _).mpr ⟨fun u => ?_, by simpa using rest⟩
  rw [State.allocate_unit]
  split <;> exact units u

theorem Allocation.keeps_ranges {s t : State} (new : Allocation s t) (laws : Ranges s) : Ranges t := by
  obtain ⟨ranges, countdowns, timer, arrivals, kinds⟩ := laws
  exact ⟨new.keeps_rangeLaw ranges, new.keeps_countdownLaw countdowns, new.keeps_timerLaw timer,
    new.keeps_arrivalLaw arrivals, new.keeps_kindLaw kinds⟩

/-- A part just powered on has no record, no tick in flight and the default configuration. -/
theorem ranges_afterPowerOn (straps : AgentId) : Ranges (State.afterPowerOn straps) := by
  have free := State.afterPowerOn_record straps
  refine ⟨(rangeLaw_iff _).mpr ⟨fun u => ?_, ?_, ?_⟩, fun i r found => ?_, ⟨?_, fun _ => rfl, fun _ => rfl⟩,
    fun a mem => (nomatch mem), fun i r found => ?_⟩
  · rw [State.afterPowerOn_unit]; exact UnitConfig.default_inRange
  · show Config.defaultCeiling ≤ 64
    decide
  · show 16 ≤ Config.defaultDivider ∧ Config.defaultDivider ≤ 65536
    decide
  · exact nomatch (free i).symm.trans found
  · show 0 < Config.defaultDivider
    decide
  · exact nomatch (free i).symm.trans found

/-- Settles O58: every primitive change and every allocation keep the ranges, and power-on starts within them. -/
theorem rangesKept : Obligations.RangesKept := by
  intro s t ranges countdowns timer arrivals kinds run
  exact step_keeps (P := Ranges) (fun _ _ => Primitive.keeps_ranges) (fun _ _ => Allocation.keeps_ranges)
    (fun straps _ _ => ranges_afterPowerOn straps) (fun _ _ kept => kept) s t
    ⟨ranges, countdowns, timer, arrivals, kinds⟩ run

end Sys2Proof.Machine
end

section
/-! SUPPORT. Sessions (spec/08 R30, R137, R145): what the law of sessions says of one agent, that each primitive change
keeps it, and the statement that every step keeps sessions and quotas. -/

namespace Sys2Proof.Machine

/-! ### The law of one agent -/

/-- What R30, R137 and R145 say of one agent: its records, its SPENT records, its notices, and its walk. -/
structure InSession (s : State) (a : AgentId) : Prop where
  live : ∀ i, s.owner i = some a → (s.agent a).state ≠ .detached
  spent : ∀ i, s.spentBy i = some a → (s.agent a).state = .attached
  silent : (s.agent a).state ≠ .attached → (s.notice a).entries = []
  walking : (s.agent a).state = .detaching → ∃ i, s.owner i = some a

theorem State.owner_eq_some {s : State} {i : SlotId} {a : AgentId} :
    s.owner i = some a ↔ ∃ r, s.record i = some r ∧ r.agent = a := by
  simp [State.owner]

theorem sessionLaw_iff (s : State) : SessionLaw s ↔ ∀ a, InSession s a := by
  constructor
  · rintro ⟨records, agents⟩ a
    refine ⟨fun i owned => ?_, fun i owned => ?_, (agents a).1, (agents a).2⟩
    · obtain ⟨r, found, rfl⟩ := State.owner_eq_some.mp owned
      exact (records i r found).1
    · obtain ⟨r, found, spent, rfl⟩ := State.spentBy_eq_some.mp owned
      exact (records i r found).2 spent
  · refine fun law => ⟨fun i r found => ⟨(law r.agent).live i ?_, fun spent => (law r.agent).spent i ?_⟩,
      fun a => ⟨(law a).silent, (law a).walking⟩⟩
    · exact State.owner_eq_some.mpr ⟨r, found, rfl⟩
    · exact State.spentBy_eq_some.mpr ⟨r, found, spent, rfl⟩

theorem State.recordCount_eq_zero_iff (s : State) (a : AgentId) :
    s.recordCount a = 0 ↔ ∀ i, s.owner i ≠ some a := by
  simp [State.recordCount, List.countP_eq_zero, allSlots]

/-! ### What a primitive change makes of an agent's records and notices -/

theorem Primitive.owner_before {s t : State} (change : Primitive s t) {i : SlotId} {a : AgentId}
    (owned : t.owner i = some a) : s.owner i = some a := by
  obtain ⟨r', found, rfl⟩ := State.owner_eq_some.mp owned
  obtain ⟨r, before, rewritten⟩ := change.record_change found
  exact State.owner_eq_some.mpr ⟨r, before, rewritten.agent.symm⟩

/-- A SPENT record was SPENT before, or its agent is ATTACHED (R30). -/
theorem RecordChange.spent_before {s : State} {j : SlotId} {r r' : Record} (change : RecordChange s j r r')
    (spent : r'.isSpent = true) : r.isSpent = true ∨ (s.agent r.agent).state = .attached := by
  cases change with
  | same => exact .inl spent
  | exclusive => exact .inl spent
  | shared => exact .inl spent
  | spent _ attached => exact .inr ((s.isAttached_iff _).mp attached)
  | lowered c present =>
    cases standing : r.standing with
    | spent => simp [standing, Standing.countdown] at present
    | _ => simp [Record.isSpent, standing, Standing.lowered] at spent
  | granted => cases spent
  | depth => cases spent
  | renewed => cases spent
  | recalled => cases spent

theorem Primitive.spentBy_before {s t : State} (change : Primitive s t) {i : SlotId} {a : AgentId}
    (spent : t.spentBy i = some a) : s.spentBy i = some a ∨ (s.agent a).state = .attached := by
  obtain ⟨r', found, isSpent, rfl⟩ := State.spentBy_eq_some.mp spent
  obtain ⟨r, before, rewritten⟩ := change.record_change found
  rw [rewritten.agent]
  exact (rewritten.spent_before isSpent).imp_left fun h => State.spentBy_eq_some.mpr ⟨r, before, h, rfl⟩

/-- A notice is posted to an ATTACHED agent alone (R124). -/
theorem State.post_entries_of_not_attached (s : State) (k : NoticeKind) (i : SlotId) {a : AgentId}
    (away : (s.agent a).state ≠ .attached) : ((s.post k i).notice a).entries = (s.notice a).entries := by
  rw [State.post_notice]
  split
  · rfl
  · next r _ =>
    refine congrArg NoticeQueue.entries (if_neg ?_)
    rintro ⟨rfl, attached⟩
    exact away ((s.isAttached_iff _).mp attached)

/-- The queue of an agent that is not ATTACHED stays empty (R124, R132). -/
theorem Primitive.keeps_silence {s t : State} (change : Primitive s t) {a : AgentId}
    (away : (s.agent a).state ≠ .attached) (empty : (s.notice a).entries = []) : (t.notice a).entries = [] := by
  have posted {b : AgentId} : ¬(a = b ∧ s.isAttached b = true) := by
    rintro ⟨rfl, attached⟩
    exact away ((s.isAttached_iff a).mp attached)
  cases change with
  | attention b on =>
    rw [State.notice_setNotice]
    split
    · next h => exact h ▸ empty
    · exact empty
  | grant own u i r x d c found waits =>
    rw [s.grant_notice own u i r x d c found waits, if_neg fun h => posted h.2]
    exact empty
  | upgrade u i =>
    rw [State.post_entries_of_not_attached _ _ _ (by simpa using away)]
    simpa using empty
  | upgradeAlone u i => simpa using empty
  | downgrade u i => simpa using empty
  | remove i r =>
    rw [State.remove_notice]
    split
    · simp [empty]
    · exact empty
  | readSpent b n rest r head =>
    have other : a ≠ b := fun h => nomatch (h ▸ empty).symm.trans head
    rw [State.remove_notice, State.notice_setNotice_of_ne _ _ other]
    split
    · simp [empty]
    · exact empty
  | readEntry b n rest head =>
    have other : a ≠ b := fun h => nomatch (h ▸ empty).symm.trans head
    rw [State.notice_setNotice_of_ne _ _ other]
    exact empty
  | spend i r cause => rw [State.markSpent_notice, if_neg posted]; exact empty
  | markRecalled i r u d => rw [State.markRecalled_notice, if_neg posted]; exact empty
  | completeDrain u => simpa using empty
  | endWalk b => simpa using empty
  | beginWalk b =>
    rw [State.beginWalk_notice]
    split
    · rfl
    · exact empty
  | resetLive => rw [State.cleared_notice]
  | hardwareReset => rw [State.hardwareReset_notice]
  | _ => exact empty

/-! ### The law is kept -/

/-- A change that leaves the agent's state, and leaves a DETACHING agent a record. -/
theorem InSession.of_change {s t : State} {a : AgentId} (law : InSession s a) (change : Primitive s t)
    (state : (t.agent a).state = (s.agent a).state)
    (walking : (s.agent a).state = .detaching → ∃ i, t.owner i = some a) : InSession t a := by
  refine ⟨fun i owned => ?_, fun i spent => ?_, fun away => ?_, fun walks => ?_⟩
  · rw [state]; exact law.live i (change.owner_before owned)
  · rw [state]; exact (change.spentBy_before spent).elim (law.spent i) id
  · rw [state] at away; exact change.keeps_silence away (law.silent away)
  · exact walking (state ▸ walks)

/-- A change that leaves the agent's state and every record's agent. -/
theorem InSession.of_owner {s t : State} {a : AgentId} (law : InSession s a) (change : Primitive s t)
    (state : (t.agent a).state = (s.agent a).state) (owner : ∀ i, t.owner i = s.owner i) : InSession t a := by
  refine law.of_change change state fun walks => ?_
  obtain ⟨i, owned⟩ := law.walking walks
  exact ⟨i, (owner i).trans owned⟩

theorem State.owner_congr {s t : State} {i : SlotId} (same : t.record i = s.record i) : t.owner i = s.owner i := by
  rw [State.owner, same, State.owner]

/-- The record in one slot is rewritten for the same agent. -/
theorem State.owner_rewrite {s t : State} {i : SlotId} {r r' : Record} (found : s.record i = some r)
    (record : ∀ j, t.record j = if j = i then some r' else s.record j) (same : r'.agent = r.agent) (j : SlotId) :
    t.owner j = s.owner j := by
  rw [State.owner, record]
  split
  · next h => rw [h, State.owner, found, Option.map_some, Option.map_some, same]
  · rfl

/-- A DETACHED agent without a record and without a notice. -/
theorem InSession.of_detached {t : State} {a : AgentId} (state : (t.agent a).state = .detached)
    (free : ∀ i, t.owner i ≠ some a) (empty : (t.notice a).entries = []) : InSession t a := by
  refine ⟨fun i owned => absurd owned (free i), fun i spent => ?_, fun _ => empty, fun walks => ?_⟩
  · obtain ⟨r, found, _, owner⟩ := State.spentBy_eq_some.mp spent
    exact absurd (State.owner_eq_some.mpr ⟨r, found, owner⟩) (free i)
  · exact nomatch state.symm.trans walks

/-- An ATTACHED agent. -/
theorem InSession.of_attached {t : State} {a : AgentId} (state : (t.agent a).state = .attached) : InSession t a :=
  ⟨fun _ _ h => (nomatch state.symm.trans h), fun _ _ => state, fun away => absurd state away,
    fun walks => nomatch state.symm.trans walks⟩

/-- Where the walk of an agent ends as its last record goes, the agent is DETACHED; otherwise its state is as before and
a DETACHING agent has a record left (R145). -/
theorem InSession.of_walk {s t : State} {a : AgentId} (law : InSession s a) (change : Primitive s t)
    (ended : (s.agent a).state = .detaching → (∀ i, t.owner i ≠ some a) → (t.agent a).state = .detached)
    (state : (s.agent a).state ≠ .detaching ∨ (∃ i, t.owner i = some a) → (t.agent a).state = (s.agent a).state) :
    InSession t a := by
  by_cases done : (s.agent a).state = .detaching ∧ ∀ i, t.owner i ≠ some a
  · obtain ⟨walks, free⟩ := done
    have away : (s.agent a).state ≠ .attached := fun h => nomatch walks.symm.trans h
    exact .of_detached (ended walks free) free (change.keeps_silence away (law.silent away))
  · have left : (s.agent a).state ≠ .detaching ∨ ∃ i, t.owner i = some a := by
      by_cases walks : (s.agent a).state = .detaching
      · exact .inr (by simpa [walks] using done)
      · exact .inl walks
    exact law.of_change change (state left) fun walks => left.resolve_left fun h => h walks

theorem State.busy_iff (s : State) (a : AgentId) : s.busy a = true ↔ (s.agent a).state = .detaching := by
  simp [State.busy]

theorem InSession.endWalk {s : State} {a : AgentId} (law : InSession s a) (b : AgentId) : InSession (s.endWalk b) a := by
  by_cases same : a = b
  · subst same
    refine law.of_walk (.endWalk s a) (fun walks free => ?_) fun left => ?_
    · rw [State.endWalk_agent, if_pos]
      exact ⟨rfl, (s.busy_iff a).mpr walks, (s.recordCount_eq_zero_iff a).mpr fun i => by simpa using free i⟩
    · rw [State.endWalk_agent, if_neg]
      rintro ⟨_, busy, none⟩
      rcases left with idle | ⟨i, owned⟩
      · exact idle ((s.busy_iff a).mp busy)
      · exact (s.recordCount_eq_zero_iff a).mp none i (by simpa using owned)
  · exact law.of_owner (.endWalk s b) (by rw [State.endWalk_agent, if_neg fun h => same h.1]) (by simp)

/-- The removal of a record ends its agent's walk exactly where it was the last. -/
theorem State.remove_agent_state (s : State) (i : SlotId) (r : Record) :
    ((s.agent r.agent).state = .detaching → (∀ j, (s.remove i r).owner j ≠ some r.agent) →
      ((s.remove i r).agent r.agent).state = .detached) ∧
    ((s.agent r.agent).state ≠ .detaching ∨ (∃ j, (s.remove i r).owner j = some r.agent) →
      ((s.remove i r).agent r.agent).state = (s.agent r.agent).state) := by
  have owner (j : SlotId) : (s.loadRecord i none).owner j = (s.remove i r).owner j := by
    rw [State.owner, State.owner, State.record_loadRecord, State.remove_record]
  have count := (s.loadRecord i none).recordCount_eq_zero_iff r.agent
  simp only [owner] at count
  rw [State.remove_agent]
  refine ⟨fun walks free => ?_, fun left => ?_⟩
  · rw [if_pos ⟨rfl, (s.busy_iff _).mpr walks, count.mpr free⟩]
  · rw [if_neg]
    rintro ⟨_, busy, none⟩
    rcases left with idle | ⟨j, owned⟩
    · exact idle ((s.busy_iff _).mp busy)
    · exact count.mp none j owned

theorem InSession.of_remove {s t : State} {i : SlotId} {r : Record} {a : AgentId} (law : InSession s a)
    (change : Primitive s t) {p : State} (removed : t = p.remove i r) (found : p.record i = some r)
    (records : ∀ j, p.record j = s.record j) (agents : ∀ b, p.agent b = s.agent b) : InSession t a := by
  subst removed
  by_cases same : a = r.agent
  · subst same
    obtain ⟨ended, state⟩ := p.remove_agent_state i r
    rw [agents] at ended state
    exact law.of_walk change ended state
  · refine law.of_change change (by rw [State.remove_agent, if_neg fun h => same h.1, agents]) fun walks => ?_
    obtain ⟨j, owned⟩ := law.walking walks
    refine ⟨j, ?_⟩
    have other : j ≠ i := by
      rintro rfl
      rw [State.owner, ← records, found, Option.map_some, Option.some.injEq] at owned
      exact same owned.symm
    rw [State.owner, State.remove_record, if_neg other, records, ← State.owner, owned]

/-- The walk's start leaves its agent DETACHING with a record that is not SPENT, or DETACHED without one (R141). -/
theorem InSession.beginWalk {s : State} {a : AgentId} (law : InSession s a) {b : AgentId}
    (attached : (s.agent b).state = .attached) : InSession (s.beginWalk b) a := by
  have change : Primitive s (s.beginWalk b) := .beginWalk s b attached
  have stays {j : SlotId} {r : Record} (found : s.record j = some r) (kept : ¬(r.agent = b ∧ r.isSpent = true)) :
      (s.beginWalk b).owner j = some r.agent := by
    rw [State.owner, State.beginWalk_record, if_neg (by simpa [found] using kept), found, Option.map_some]
  have agent := s.beginWalk_agent b a
  by_cases same : a = b
  · subst same
    have silent : ((s.beginWalk a).notice a).entries = [] := by rw [State.beginWalk_notice, if_pos rfl]
    have gone (j : SlotId) : (s.beginWalk a).spentBy j ≠ some a := fun spent => by
      obtain ⟨r, found, isSpent, owner⟩ := State.spentBy_eq_some.mp spent
      rw [State.beginWalk_record] at found
      split at found
      · cases found
      · next kept => exact kept (by simp [found, owner, isSpent])
    rw [if_pos rfl] at agent
    split at agent
    · next all =>
      refine .of_detached (by rw [agent]) (fun j owned => ?_) silent
      obtain ⟨r, found, owner⟩ := State.owner_eq_some.mp (change.owner_before owned)
      have here : (s.beginWalk a).record j = none := by
        rw [State.beginWalk_record, if_pos (by simp [found, owner, all j r found owner])]
      rw [State.owner, here] at owned
      cases owned
    · next some =>
      push Not at some
      obtain ⟨j, r, found, owner, unspent⟩ := some
      refine ⟨fun _ _ h => ?_, fun j spent => absurd spent (gone j), fun _ => silent, fun _ => ⟨j, ?_⟩⟩
      · rw [agent] at h; cases h
      · rw [stays found (fun h => unspent h.2), owner]
  · rw [if_neg same] at agent
    refine law.of_change change (by rw [agent]) fun walks => ?_
    obtain ⟨j, owned⟩ := law.walking walks
    obtain ⟨r, found, owner⟩ := State.owner_eq_some.mp owned
    exact ⟨j, by rw [stays found (fun h => same (owner.symm.trans h.1)), owner]⟩

theorem State.setAgent_state (s : State) (a b : AgentId) {x : AgentRecord} (same : x.state = (s.agent a).state) :
    ((s.setAgent a x).agent b).state = (s.agent b).state := by
  rw [State.agent_setAgent]
  split
  · next h => rw [same, h]
  · rfl

@[simp] theorem State.setMode_owner (s : State) (i : SlotId) (m : Mode) (j : SlotId) :
    (s.setMode i m).owner j = s.owner j := by
  rw [State.owner, State.setMode_record]
  split
  · next h => rw [h, State.owner]; cases s.record i <;> rfl
  · rfl

theorem inSession_of_reset {t : State} (free : ∀ i, t.record i = none) {a : AgentId}
    (state : (t.agent a).state ≠ .detaching) (silent : (t.notice a).entries = []) : InSession t a :=
  ⟨fun i owned => (by simp [State.owner, free] at owned), fun i spent => (by simp [State.spentBy, free] at spent),
    fun _ => silent, fun walks => absurd walks state⟩

/-- Every primitive change keeps the sessions. -/
theorem Primitive.keeps_sessionLaw {s t : State} (change : Primitive s t) (law : SessionLaw s) : SessionLaw t := by
  refine (sessionLaw_iff t).mpr fun a => ?_
  have here := (sessionLaw_iff s).mp law a
  have change' := change
  cases change with
  | attach b =>
    by_cases same : a = b
    · subst same
      exact .of_attached (by rw [State.agent_setAgent_self])
    · exact here.of_owner change' (by rw [State.agent_setAgent_of_ne _ _ same]) fun _ => rfl
  | hold b => exact here.of_owner change' (s.setAgent_state b a rfl) fun _ => rfl
  | clearance b => exact here.of_owner change' (s.setAgent_state b a rfl) fun _ => rfl
  | quota b => exact here.of_owner change' (s.setAgent_state b a rfl) fun _ => rfl
  | grant own u i r x d c found waits =>
    exact here.of_owner change' (by simp)
      (State.owner_rewrite found (s.grant_record own u i r x d c found waits) rfl)
  | upgrade u i =>
    exact here.of_owner change' (by simp) fun j => by rw [State.post_owner, State.setMode_owner, State.clearMark_owner]
  | upgradeAlone u i =>
    exact here.of_owner change' (by simp) fun j => by rw [State.setMode_owner, State.clearMarkOf_owner]
  | downgrade u i => exact here.of_owner change' (by simp) (s.setMode_owner i .shared)
  | depth i r u d d' c found => exact here.of_owner change' rfl (State.owner_rewrite found (s.record_writeRecord i _) rfl)
  | renew i r u d c requested found =>
    exact here.of_owner change' rfl (State.owner_rewrite found (s.record_loadRecord i _) rfl)
  | remove i r found => exact here.of_remove change' rfl found (fun _ => rfl) fun _ => rfl
  | readSpent b n rest r _ _ found => exact here.of_remove change' rfl found (fun _ => rfl) fun _ => rfl
  | spend i r cause found =>
    exact here.of_owner change' (by simp) (State.owner_rewrite found (s.markSpent_record i r cause) rfl)
  | markRecalled i r u d c found =>
    exact here.of_owner change' (by simp) (State.owner_rewrite found (s.markRecalled_record i r u d) rfl)
  | completeDrain u => exact here.of_owner change' (by simp) (by simp)
  | endWalk b => exact here.endWalk b
  | beginWalk b attached => exact here.beginWalk attached
  | countdown i r c found =>
    exact here.of_owner change' rfl (State.owner_rewrite found (s.record_writeRecord i _) rfl)
  | resetLive =>
    refine inSession_of_reset s.cleared_record ?_ (by rw [State.cleared_notice])
    rw [State.cleared_agent]
    dsimp only
    split
    · exact nofun
    · next idle => exact idle
  | hardwareReset =>
    refine inSession_of_reset s.hardwareReset_record ?_ (by rw [State.hardwareReset_notice])
    rw [State.hardwareReset_agent]
    exact nofun
  | _ => exact here.of_owner change' rfl fun _ => rfl

/-- A request is refused where its agent is not ATTACHED, and no other agent gets a record (R45, R53). -/
theorem Allocation.keeps_sessionLaw {s t : State} (new : Allocation s t) (law : SessionLaw s) : SessionLaw t := by
  obtain ⟨i, b, mode, x, requested, waitLimit, free, attached⟩ := new
  refine (sessionLaw_iff _).mpr fun a => ?_
  have here := (sessionLaw_iff s).mp law a
  by_cases same : a = b
  · subst same
    exact .of_attached (by rw [State.allocate_agent]; exact (s.isAttached_iff a).mp attached)
  · have owner (j : SlotId) : (s.allocate i b mode x requested waitLimit).owner j = some a ↔ s.owner j = some a := by
      rw [State.owner, State.allocate_record]
      split
      · next h => simp [h, State.owner, free, Ne.symm same]
      · rfl
    have spent {j : SlotId} (spent : (s.allocate i b mode x requested waitLimit).spentBy j = some a) :
        s.spentBy j = some a := by
      rw [State.spentBy, State.allocate_record] at spent
      split at spent
      · cases spent
      · exact spent
    refine ⟨fun j owned => ?_, fun j h => ?_, ?_, ?_⟩
    · rw [State.allocate_agent]; exact here.live j ((owner j).mp owned)
    · rw [State.allocate_agent]; exact here.spent j (spent h)
    · rw [State.allocate_agent, State.allocate_notice]; exact here.silent
    · simp only [State.allocate_agent, owner]; exact here.walking

theorem step_keeps_sessionLaw (s t : State) : SessionLaw s → step s = .next t → SessionLaw t := by
  refine step_keeps (P := SessionLaw) (fun _ _ => Primitive.keeps_sessionLaw) (fun _ _ => Allocation.keeps_sessionLaw)
    (fun straps _ _ => ?_) (fun _ _ kept => kept) s t
  have fresh : SessionLaw (State.afterPowerOn straps) := (sessionLaw_iff _).mpr fun a =>
    inSession_of_reset (State.afterPowerOn_record straps) (by rw [State.afterPowerOn_agent]; exact nofun)
      (by rw [State.afterPowerOn_notice])
  exact fresh

/-- Settles O56: every step keeps the sessions, and the quotas. -/
theorem sessionsAndQuotasKept : Obligations.SessionsAndQuotasKept := fun s t sessions quotas run =>
  ⟨step_keeps_sessionLaw s t sessions run, step_keeps_quotaLaw s t quotas run⟩

end Sys2Proof.Machine
end

section
/-! SUPPORT. Holder sets (spec/01 R4, R5): what the law of holders says of one unit, and that every primitive change keeps
it. -/

namespace Sys2Proof.Machine

/-! ### The law of one unit -/

/-- What R5 and R10 say of the holders of one unit. -/
structure HoldersFit (s : State) (u : UnitId) : Prop where
  capacity : 1 ≤ (s.unit u).config.capacity
  alone : ∀ i, i ∈ s.holders u → s.isShared i = false → s.holders u = [i]
  room : (s.holders u).countP s.isShared ≤ (s.unit u).config.capacity
  offline : (s.unit u).state = .offline → s.holders u = []

theorem holderLaw_iff (s : State) : HolderLaw s ↔ ∀ u, HoldersFit s u :=
  forall_congr' fun _ => ⟨fun ⟨capacity, alone, room, offline⟩ => ⟨capacity, alone, room, offline⟩,
    fun fit => ⟨fit.capacity, fit.alone, fit.room, fit.offline⟩⟩

theorem State.holders_nodup (s : State) (u : UnitId) : (s.holders u).Nodup := (List.nodup_finRange 96).filter _

/-- Fewer slots that hold the unit are fewer holders, in the same order. -/
theorem State.holders_sublist {s t : State} {u : UnitId} (fewer : ∀ i, t.holding i = some u → s.holding i = some u) :
    (t.holders u).Sublist (s.holders u) :=
  List.monotone_filter_right _ fun i h => by simpa using fewer i (by simpa using h)

theorem State.holders_congr {s t : State} {u : UnitId} (same : ∀ i, t.holding i = some u ↔ s.holding i = some u) :
    t.holders u = s.holders u :=
  List.filter_congr fun i _ => by rw [Bool.eq_iff_iff, beq_iff_eq, beq_iff_eq, same]

/-- A set of holders that is some of the holders before, in their modes. -/
theorem HoldersFit.of_fewer {s t : State} {u : UnitId} (fit : HoldersFit s u)
    (capacity : (t.unit u).config.capacity = (s.unit u).config.capacity)
    (offline : (t.unit u).state = .offline → (s.unit u).state = .offline ∨ s.holders u = [])
    (holding : ∀ i, t.holding i = some u → s.holding i = some u)
    (mode : ∀ i, t.holding i = some u → t.isShared i = s.isShared i) : HoldersFit t u := by
  have fewer := State.holders_sublist holding
  have empty (h : s.holders u = []) : t.holders u = [] := by rwa [h, List.sublist_nil] at fewer
  refine ⟨capacity ▸ fit.capacity, fun i mem exclusive => ?_, ?_, fun off => ?_⟩
  · have holds := (t.mem_holders_iff_holding u i).mp mem
    have only := fit.alone i (fewer.subset mem) ((mode i holds).symm.trans exclusive)
    rw [only] at fewer
    exact fewer.eq_of_length_le (List.length_pos_of_mem mem)
  · rw [capacity]
    refine le_trans (Nat.le_of_eq ?_) ((fewer.countP_le).trans fit.room)
    exact List.countP_congr fun i mem => by rw [mode i ((t.mem_holders_iff_holding u i).mp mem)]
  · exact empty ((offline off).elim fit.offline id)

/-- A unit without a holder. -/
theorem HoldersFit.of_empty {t : State} {u : UnitId} (capacity : 1 ≤ (t.unit u).config.capacity)
    (empty : t.holders u = []) : HoldersFit t u := by
  refine ⟨capacity, fun i mem => ?_, ?_, fun _ => empty⟩
  · rw [empty] at mem; cases mem
  · rw [empty]; exact Nat.zero_le _

/-- A unit with one holder that is not OFFLINE. -/
theorem HoldersFit.of_single {t : State} {u : UnitId} {i : SlotId} (capacity : 1 ≤ (t.unit u).config.capacity)
    (single : t.holders u = [i]) (online : (t.unit u).state ≠ .offline) : HoldersFit t u := by
  refine ⟨capacity, fun j mem _ => ?_, ?_, fun off => absurd off online⟩
  · rw [single, List.mem_singleton] at mem
    rw [single, mem]
  · rw [single]
    exact (List.countP_le_length).trans capacity

/-! ### Changes of one record -/

theorem State.holding_congr {s t : State} {i : SlotId} (same : t.record i = s.record i) : t.holding i = s.holding i := by
  rw [State.holding, same, State.holding]

theorem State.isShared_congr {s t : State} {i : SlotId} (same : t.record i = s.record i) :
    t.isShared i = s.isShared i := by
  rw [State.isShared, same, State.isShared]

/-- A change that rewrites or empties one slot, whose record holds afterwards at most the unit that it held, in its
mode. -/
theorem HoldersFit.of_write {s t : State} {u : UnitId} (fit : HoldersFit s u) {i : SlotId} {left : Option Record}
    {r : Record} (found : s.record i = some r) (record : ∀ j, t.record j = if j = i then left else s.record j)
    (kept : ∀ q, left = some q → q.holding = some u → r.holding = some u ∧ q.mode = r.mode)
    (capacity : (t.unit u).config.capacity = (s.unit u).config.capacity)
    (offline : (t.unit u).state = .offline → (s.unit u).state = .offline ∨ s.holders u = []) : HoldersFit t u := by
  have written {j : SlotId} (holds : t.holding j = some u) :
      s.holding j = some u ∧ t.isShared j = s.isShared j := by
    have here := record j
    by_cases same : j = i
    · subst same
      rw [if_pos rfl] at here
      rw [State.holding, here, Option.bind_eq_some_iff] at holds
      obtain ⟨q, rfl, holds⟩ := holds
      obtain ⟨before, mode⟩ := kept q rfl holds
      rw [State.holding_of_record found, State.isShared, here, State.isShared, found, Option.any_some, Option.any_some,
        mode]
      exact ⟨before, rfl⟩
    · rw [if_neg same] at here
      rw [State.holding_congr here] at holds
      exact ⟨holds, State.isShared_congr here⟩
  exact fit.of_fewer capacity offline (fun _ h => (written h).1) fun _ h => (written h).2

/-- A grant puts one record beside the holders: it is alone, or SHARED among SHARED holders with room for it (R73). -/
theorem HoldersFit.grant {s : State} {v : UnitId} (fit : HoldersFit s v) (own : Option SlotId) {u : UnitId} {i : SlotId}
    {r : Record} {x : Target} {d : Nat} {c : Option Nat} (found : s.record i = some r)
    (waits : r.standing = .waiting x d c) (opened : (s.unit u).state = .opened)
    (fits : s.compatible r.mode u = true) : HoldersFit (s.grant own u i) v := by
  have config : ((s.grant own u i).unit v).config.capacity = (s.unit v).config.capacity := by
    obtain ⟨q, unit⟩ := s.grant_unit_queue own u i v
    rw [unit]
  have state := s.grant_state own u i v
  have record := s.grant_record own u i r x d c found waits
  have idle : s.holding i = none := by simp [State.holding_of_record found, Record.holding, waits]
  have others {j : SlotId} (other : j ≠ i) : (s.grant own u i).record j = s.record j := by rw [record, if_neg other]
  have here : (s.grant own u i).holding i = some u := by rw [State.holding, record, if_pos rfl]; rfl
  by_cases same : v = u
  · subst same
    have holders (j : SlotId) : j ∈ (s.grant own v i).holders v ↔ j = i ∨ j ∈ s.holders v := by
      rw [State.mem_holders_iff_holding, State.mem_holders_iff_holding]
      by_cases h : j = i
      · subst h; simp [here]
      · simp [h, State.holding_congr (others h)]
    have fewer : (s.grant own v i).holders v ⊆ i :: s.holders v := fun j mem =>
      List.mem_cons.mpr ((holders j).mp mem)
    rcases (s.compatible_iff r.mode v).mp fits with empty | ⟨shared, all, room⟩
    · refine .of_single (config ▸ fit.capacity) (i := i) ?_ (by rw [state, opened]; exact nofun)
      rw [empty] at fewer
      have one : ((s.grant own v i).holders v).length ≤ 1 :=
        ((State.holders_nodup _ v).subperm fewer).length_le
      obtain ⟨j, single⟩ := List.length_eq_one_iff.mp
        (Nat.le_antisymm one (List.length_pos_of_mem ((holders i).mpr (.inl rfl))))
      have mem := (holders i).mpr (.inl rfl)
      rw [single, List.mem_singleton] at mem
      rw [single, mem]
    · refine ⟨config ▸ fit.capacity, fun j mem exclusive => ?_, ?_, fun off => ?_⟩
      · refine absurd exclusive (Bool.not_eq_false _ ▸ ?_)
        by_cases h : j = i
        · subst h
          rw [State.isShared_of_record ((record j).trans (if_pos rfl))]
          exact shared
        · rw [State.isShared_congr (others h)]
          obtain ⟨q, before, holds⟩ := (s.mem_holders v j).mp (((holders j).mp mem).resolve_left h)
          exact (State.isShared_of_record before).mpr (all j q before holds)
      · rw [config]
        calc ((s.grant own v i).holders v).countP (s.grant own v i).isShared
            ≤ ((s.grant own v i).holders v).length := List.countP_le_length
          _ ≤ (i :: s.holders v).length := ((State.holders_nodup _ v).subperm fewer).length_le
          _ ≤ (s.unit v).config.capacity := room
      · rw [state, opened] at off; cases off
  · have stays {j : SlotId} (holds : (s.grant own u i).holding j = some v) : j ≠ i := by
      rintro rfl
      exact same (Option.some.inj (holds.symm.trans here))
    refine fit.of_fewer config (fun off => .inl (state ▸ off)) (fun j holds => ?_) fun j holds => ?_
    · rw [← State.holding_congr (others (stays holds))]; exact holds
    · exact State.isShared_congr (others (stays holds))

@[simp] theorem State.setMode_holding (s : State) (i : SlotId) (m : Mode) (j : SlotId) :
    (s.setMode i m).holding j = s.holding j := by
  rw [State.holding, State.setMode_record]
  split
  · next h => rw [h, State.holding]; cases s.record i <;> rfl
  · rfl

@[simp] theorem State.setMode_holders (s : State) (i : SlotId) (m : Mode) (u : UnitId) :
    (s.setMode i m).holders u = s.holders u := State.holders_congr fun j => by simp

/-- The mode of the one holder of a unit may be written (R98, R105). -/
theorem HoldersFit.setMode {s : State} {v : UnitId} (fit : HoldersFit s v) {u : UnitId} {i : SlotId}
    (alone : s.holders u = [i]) (m : Mode) : HoldersFit (s.setMode i m) v := by
  have holds : s.holding i = some u := (s.mem_holders_iff_holding u i).mp (by rw [alone]; exact List.mem_singleton_self i)
  by_cases same : v = u
  · subst same
    refine .of_single (by simpa using fit.capacity) (i := i) (by simpa using alone) fun off => ?_
    rw [State.setMode_unit] at off
    rw [fit.offline off] at alone
    cases alone
  · refine fit.of_fewer (by simp) (fun off => .inl (by simpa using off)) (fun j h => by simpa using h) fun j h => ?_
    rw [State.setMode_holding] at h
    have other : j ≠ i := by
      rintro rfl
      exact same (Option.some.inj (h.symm.trans holds))
    exact State.isShared_congr (by rw [State.setMode_record, if_neg other])

/-- A change that writes no record, no capacity, and no unit's state to OFFLINE. -/
theorem HoldersFit.of_unwritten {s t : State} {v : UnitId} (fit : HoldersFit s v)
    (record : ∀ i, t.record i = s.record i) (capacity : (t.unit v).config.capacity = (s.unit v).config.capacity)
    (offline : (t.unit v).state = .offline → (s.unit v).state = .offline ∨ s.holders v = []) : HoldersFit t v :=
  fit.of_fewer capacity offline (fun i holds => State.holding_congr (record i) ▸ holds) fun i _ =>
    State.isShared_congr (record i)

/-- A unit record is written, but not its capacity, nor OFFLINE over a holder. -/
theorem HoldersFit.setUnit {s : State} {v : UnitId} (fit : HoldersFit s v) {u : UnitId} {x : UnitRecord}
    (capacity : x.config.capacity = (s.unit u).config.capacity)
    (offline : x.state = .offline → (s.unit u).state = .offline) : HoldersFit (s.setUnit u x) v := by
  refine fit.of_unwritten (fun _ => rfl) ?_ ?_ <;> rw [State.unit_setUnit] <;> split
  · next h => rw [capacity, h]
  · rfl
  · next h => exact fun off => .inl (h ▸ offline off)
  · exact fun off => .inl off

theorem HoldersFit.clearMarkOf {s : State} {v : UnitId} (fit : HoldersFit s v) (u : UnitId) (i : SlotId) :
    HoldersFit (s.clearMarkOf u i) v := by
  unfold State.clearMarkOf
  split
  · exact fit.setUnit rfl id
  · exact fit

/-- A record leaves its place, and what is left in the slot holds at most what it held, in its mode. -/
theorem HoldersFit.of_departure {s t : State} {v : UnitId} (fit : HoldersFit s v) {i : SlotId} {r : Record}
    {left : Option Record} (found : s.record i = some r) (record : ∀ j, t.record j = if j = i then left else s.record j)
    (unit : t.unit v = (s.leavePlace i r).unit v)
    (kept : ∀ q, left = some q → q.holding = some v → r.holding = some v ∧ q.mode = r.mode) : HoldersFit t v := by
  refine fit.of_write found record kept ?_ ?_ <;> rw [unit, State.leavePlace_unit]
  exact .inl

/-- The holder of an EXCLUSIVE lease is alone (R5). -/
theorem HolderLaw.holders_of_exclusive {s : State} (law : HolderLaw s) {u : UnitId} {i : SlotId} {r : Record}
    (found : s.record i = some r) (holds : r.holding = some u) (exclusive : r.mode = .exclusive) :
    s.holders u = [i] := by
  refine ((holderLaw_iff s).mp law u).alone i ((s.mem_holders u i).mpr ⟨r, found, holds⟩) ?_
  rw [State.isShared, found, Option.any_some, exclusive]
  rfl

theorem Primitive.keeps_holderLaw {s t : State} (change : Primitive s t) (law : HolderLaw s) : HolderLaw t := by
  refine (holderLaw_iff t).mpr fun v => ?_
  have fit := (holderLaw_iff s).mp law v
  cases change with
  | grant own u i r x d c found waits opened _ fits => exact fit.grant own found waits opened fits
  | unitBottom => exact fit.setUnit rfl id
  | poolBottom => exact fit.of_unwritten (fun _ => rfl) rfl .inl
  | upgrade u i opened marked alone =>
    have cleared : HoldersFit (s.clearMark u) v := fit.setUnit rfl id
    have upgraded := cleared.setMode (u := u) (i := i) alone .exclusive
    exact upgraded.of_unwritten (by simp) (by simp) fun off => .inl (by simpa using off)
  | clearMark => exact fit.setUnit rfl id
  | setMark => exact fit.setUnit rfl id
  | upgradeAlone u i r _ _ _ alone =>
    exact (fit.clearMarkOf u i).setMode (u := u) (i := i) (by simpa using alone) .exclusive
  | downgrade u i r found holds exclusive =>
    exact fit.setMode (law.holders_of_exclusive found (Record.holding_of_isHeldOn holds) exclusive) .shared
  | depth i r u d d' c found holds =>
    refine fit.of_write found (s.record_writeRecord i _) ?_ rfl .inl
    rintro _ ⟨⟩ h
    exact ⟨(Record.holding_of_held holds).trans h, rfl⟩
  | renew i r u d c requested found holds =>
    refine fit.of_write found (s.record_loadRecord i _) ?_ rfl .inl
    rintro _ ⟨⟩ h
    exact ⟨(Record.holding_of_held holds).trans h, rfl⟩
  | remove i r found => exact fit.of_departure found (s.remove_record i r) (s.remove_unit i r v) nofun
  | readSpent a n rest r _ _ found =>
    have read : HoldersFit (s.setNotice a { s.notice a with entries := rest }) v := fit.of_unwritten (fun _ => rfl) rfl .inl
    exact read.of_departure found (State.remove_record _ _ r) (State.remove_unit _ _ r v) nofun
  | spend i r cause found =>
    refine fit.of_departure found (s.markSpent_record i r cause) (s.markSpent_unit i r cause v) ?_
    rintro _ ⟨⟩ ⟨⟩
  | markRecalled i r u d c found holds =>
    have place : s.clearMarkOf u i = s.leavePlace i r := by simp only [State.leavePlace, holds]
    refine fit.of_departure found (s.markRecalled_record i r u d) (by rw [State.markRecalled_unit, place]) ?_
    rintro _ ⟨⟩ h
    exact ⟨(Record.holding_of_held holds).trans h, rfl⟩
  | completeDrain u =>
    refine fit.of_unwritten (by simp) ?_ ?_ <;> rw [State.completeDrain_unit] <;> split
    · rfl
    · rfl
    · next h => exact fun _ => .inr h.2.2
    · exact .inl
  | endWalk a => exact fit.of_unwritten (by simp) (by simp) fun off => .inl (by simpa using off)
  | beginWalk a =>
    have fewer (j : SlotId) {u : UnitId} (holds : (s.beginWalk a).holding j = some u) :
        (s.beginWalk a).record j = s.record j := by
      rw [State.beginWalk_record]
      split
      · next h => rw [State.holding, State.beginWalk_record, if_pos h] at holds; cases holds
      · rfl
    refine fit.of_fewer (by simp) (fun off => .inl (by simpa using off)) (fun j holds => ?_) fun j holds => ?_
    · rw [← State.holding_congr (fewer j holds)]; exact holds
    · exact State.isShared_congr (fewer j holds)
  | countdown i r c found present more =>
    refine fit.of_write found (s.record_writeRecord i _) ?_ rfl .inl
    rintro _ ⟨⟩ h
    refine ⟨?_, rfl⟩
    rw [← h]
    unfold Record.holding Standing.lowered
    cases r.standing <;> rfl
  | configureUnit u config _ offline capacity =>
    by_cases same : v = u
    · subst same
      exact .of_empty (by rw [State.unit_setUnit_self]; exact capacity.1) (fit.offline offline)
    · exact fit.of_unwritten (fun _ => rfl) (by rw [State.unit_setUnit_of_ne _ _ same])
        (by rw [State.unit_setUnit_of_ne _ _ same]; exact .inl)
  | openUnit => exact fit.setUnit rfl nofun
  | startDrain => exact fit.setUnit rfl nofun
  | resetLive =>
    refine .of_empty (by rw [State.cleared_unit]; exact fit.capacity) ?_
    simp [State.holders, State.holding]
  | hardwareReset =>
    refine .of_empty ?_ (by simp [State.holders, State.holding])
    rw [State.hardwareReset_unit, State.keepIfFrozen]
    dsimp only
    split
    · exact fit.capacity
    · decide
  | _ => exact fit.of_unwritten (fun _ => rfl) rfl .inl

/-- A new record waits, and holds nothing. -/
theorem Allocation.keeps_holderLaw {s t : State} (new : Allocation s t) (law : HolderLaw s) : HolderLaw t := by
  obtain ⟨i, a, mode, x, requested, waitLimit, free⟩ := new
  refine (holderLaw_iff _).mpr fun v => ?_
  have fit := (holderLaw_iff s).mp law v
  have stays {j : SlotId} (holds : (s.allocate i a mode x requested waitLimit).holding j = some v) :
      (s.allocate i a mode x requested waitLimit).record j = s.record j := by
    rw [State.holding, State.allocate_record] at holds
    rw [State.allocate_record]
    split at holds
    · cases holds
    · next h => rw [if_neg h]
  refine fit.of_fewer ?_ ?_ (fun j holds => ?_) fun j holds => State.isShared_congr (stays holds)
  · rw [State.allocate_unit]; split <;> rfl
  · rw [State.allocate_unit]; split <;> exact .inl
  · rw [← State.holding_congr (stays holds)]; exact holds

theorem step_keeps_holderLaw (s t : State) : HolderLaw s → step s = .next t → HolderLaw t := by
  refine step_keeps (P := HolderLaw) (fun _ _ => Primitive.keeps_holderLaw) (fun _ _ => Allocation.keeps_holderLaw)
    (fun straps _ _ => ?_) (fun _ _ kept => kept) s t
  have fresh : HolderLaw (State.afterPowerOn straps) := (holderLaw_iff _).mpr fun u => by
    refine .of_empty ?_ (by simp [State.holders, State.holding])
    rw [State.afterPowerOn_unit]
    decide
  exact fresh

end Sys2Proof.Machine
end

section
/-! SUPPORT. Acts: the changes that a command or an event makes one after another, each whole with the grant passes it
calls. Where `Chain` says of which primitive changes a command is made, a row of acts also says when the passes run. -/

namespace Sys2Proof.Machine

/-! ### Who holds what, and what a calm change leaves -/

/-- The agent and the unit of a HELD or RECALLED record. -/
def Record.hold (r : Record) : Option (AgentId × UnitId) := r.holding.map (r.agent, ·)

/-- Who holds what in slot i. -/
def State.hold (s : State) (i : SlotId) : Option (AgentId × UnitId) := (s.record i).bind Record.hold

theorem Record.hold_eq_some {r : Record} {a : AgentId} {u : UnitId} :
    r.hold = some (a, u) ↔ r.agent = a ∧ r.holding = some u := by
  simp [Record.hold, and_comm]

theorem State.hold_eq_some {s : State} {i : SlotId} {a : AgentId} {u : UnitId} :
    s.hold i = some (a, u) ↔ ∃ r, s.record i = some r ∧ r.agent = a ∧ r.holding = some u := by
  simp only [State.hold, Option.bind_eq_some_iff, Record.hold_eq_some]

theorem State.hold_congr {s t : State} {i : SlotId} (same : t.record i = s.record i) : t.hold i = s.hold i := by
  rw [State.hold, same, State.hold]

/-- The record in one slot is rewritten for the same agent on the same unit, if any. -/
theorem State.hold_rewrite {s t : State} {i : SlotId} {r r' : Record} (found : s.record i = some r)
    (record : ∀ j, t.record j = if j = i then some r' else s.record j) (same : r'.hold = r.hold) (j : SlotId) :
    t.hold j = s.hold j := by
  rw [State.hold, record]
  split
  · next h => rw [h, State.hold, found, Option.bind_some, Option.bind_some, same]
  · rfl

theorem State.holding_eq_some_iff_hold {s : State} {i : SlotId} {u : UnitId} :
    s.holding i = some u ↔ ∃ a, s.hold i = some (a, u) := by
  simp [State.holding, Option.bind_eq_some_iff, State.hold_eq_some]

theorem State.holders_eq_nil_iff (s : State) (u : UnitId) : s.holders u = [] ↔ ∀ i a, s.hold i ≠ some (a, u) := by
  simp only [List.eq_nil_iff_forall_not_mem, State.mem_holders_iff_holding, State.holding_eq_some_iff_hold, not_exists]

/-- A change under which nobody gains or loses a unit, no agent becomes eligible, no unit is opened or starts to drain,
and RST_N stays. -/
structure Calm (s t : State) : Prop where
  hold : ∀ i, t.hold i = s.hold i
  state : ∀ v, (t.unit v).state = (s.unit v).state ∨ (s.unit v).state = .draining ∧ (t.unit v).state = .offline
  permits : ∀ a u, t.mayBeGranted a u = true → s.mayBeGranted a u = true
  reset : t.inReset = s.inReset

theorem State.mayBeGranted_congr {s t : State} {a : AgentId} (agent : t.agent a = s.agent a)
    (ceiling : t.ceiling = s.ceiling) (supervisor : t.supervisor = s.supervisor) (u : UnitId) :
    t.mayBeGranted a u = s.mayBeGranted a u := by
  simp only [State.mayBeGranted, State.isAttached, State.bandPermits, State.inBand, State.clearance, agent, ceiling,
    supervisor]

/-- An agent that a change leaves as it was, or not ATTACHED, is not made eligible by it. -/
theorem State.mayBeGranted_of_away {s t : State} {a : AgentId} {u : UnitId}
    (away : t.agent a = s.agent a ∨ (t.agent a).state ≠ .attached) (ceiling : t.ceiling = s.ceiling)
    (supervisor : t.supervisor = s.supervisor) (may : t.mayBeGranted a u = true) : s.mayBeGranted a u = true := by
  rcases away with same | away
  · rwa [State.mayBeGranted_congr same ceiling supervisor] at may
  · obtain ⟨attached, _⟩ := (t.mayBeGranted_iff a u).mp may
    exact absurd attached away

/-! ### Acts -/

/-- One act of a command or an event. -/
inductive Act : State → State → Prop where
  | calm {s t : State} (change : Primitive s t) (calm : Calm s t) : Act s t
  | attach (s : State) (a : AgentId) (free : (s.agent a).state = .detached) (quota : (s.agent a).quota ≠ 0) :
      Act s (s.setAgent a { s.agent a with state := .attached, held := false })
  | clearance (s : State) (a : AgentId) (yes : Bool) (thawed : s.frozen = false)
      (clear : yes = true ∨ ∀ u : UnitId, s.ceiling ≤ u.val → s.occupiedBy u (fun b => b == a) = false) :
      Act s (s.setAgent a { s.agent a with clearance := yes })
  | pass (s : State) (own : Option SlotId) (x : Target) : Act s (s.passOn own x)
  | retire (s : State) (i : SlotId) : Act s (s.retire i)
  | spend (s : State) (i : SlotId) (cause : SpentCause)
      (fits : ∀ r, s.record i = some r → r.isSpent = false ∧ r.standing.claim.mayEndAs cause) : Act s (s.spend i cause)
  | reopen (s : State) (u : UnitId) (closed : (s.unit u).state ≠ .opened) :
      Act s ((s.setUnit u { s.unit u with state := .opened }).unitPass none u)
  | raise (s : State) (c : Nat) (thawed : s.frozen = false) (range : c ≤ 64) (rises : s.ceiling ≤ c) :
      Act s (({ s with ceiling := c } : State).unitPasses (unitsFrom s.ceiling c))
  | resume (s : State) (a : AgentId) (attached : (s.agent a).state = .attached) :
      Act s ((s.setAgent a { s.agent a with held := false }).unitPasses (s.unitsWaitedFor a))
  | clear (s : State) : Act s s.cleared

/-- One after another, any number of acts. -/
abbrev Acts : State → State → Prop := Relation.ReflTransGen Act

theorem Act.acts {s t : State} (act : Act s t) : Acts s t := Relation.ReflTransGen.single act

theorem Acts.then {s t w : State} (first : Acts s t) (second : Acts t w) : Acts s w :=
  Relation.ReflTransGen.trans first second

/-- What every act keeps, a row of acts keeps. -/
theorem Acts.keeps {P : State → Prop} (each : ∀ s t, Act s t → P s → P t) {s t : State} (acts : Acts s t)
    (start : P s) : P t := by
  induction acts with
  | refl => exact start
  | tail _ last ih => exact each _ _ last ih

theorem Acts.foldl {α : Type} (f : State → α → State) (each : ∀ s x, Acts s (f s x)) (xs : List α) (s : State) :
    Acts s (xs.foldl f s) := by
  induction xs generalizing s with
  | nil => exact .refl
  | cons x xs ih => exact (each s x).then (ih _)

/-- An act is a chain of primitive changes. -/
theorem Act.chain {s t : State} (act : Act s t) : Chain s t := by
  cases act with
  | calm change => exact change.chain
  | attach a free quota => exact (Primitive.attach s a free quota).chain
  | clearance a yes thawed clear => exact (Primitive.clearance s a yes thawed clear).chain
  | pass own x => exact s.passOn_chain own x
  | retire i => exact s.retire_chain i
  | spend i cause fits => exact s.spend_chain i cause fits
  | reopen u closed => exact (Primitive.openUnit s u closed).chain.then (State.unitPass_chain _ none u)
  | raise c thawed range rises =>
    exact (Primitive.ceiling s c thawed range (.inl rises)).chain.then (State.unitPasses_chain _ _)
  | resume a attached => exact (Primitive.hold s a false attached).chain.then (State.unitPasses_chain _ _)
  | clear => exact (Primitive.resetLive s).chain

theorem Acts.chain {s t : State} (acts : Acts s t) : Chain s t := by
  induction acts with
  | refl => exact .refl
  | tail _ last ih => exact ih.then last.chain

/-! ### Calm acts -/

/-- A change that writes no record, agent or unit, nor the ceiling, the supervisor number or RST_N. -/
theorem Calm.of_frame {s t : State} (record : ∀ i, t.record i = s.record i)
    (state : ∀ v, (t.unit v).state = (s.unit v).state) (agent : ∀ a, t.agent a = s.agent a)
    (ceiling : t.ceiling = s.ceiling) (supervisor : t.supervisor = s.supervisor) (reset : t.inReset = s.inReset) :
    Calm s t :=
  ⟨fun i => State.hold_congr (record i), fun v => .inl (state v),
    fun a u may => State.mayBeGranted_congr (agent a) ceiling supervisor u ▸ may, reset⟩

section

variable (s : State)

theorem State.setPort_acts (p : PortPins) : Acts s (s.setPort p) :=
  (Act.calm (.port s p) (.of_frame (fun _ => rfl) (fun _ => rfl) (fun _ => rfl) rfl rfl rfl)).acts

theorem State.setStation_acts (a : AgentId) (st : Station) : Acts s (s.setStation a st) :=
  (Act.calm (.station s a st) (.of_frame (fun _ => rfl) (fun _ => rfl) (fun _ => rfl) rfl rfl rfl)).acts

theorem State.setControl_acts (st : Station) : Acts s (s.setControl st) :=
  (Act.calm (.control s st) (.of_frame (fun _ => rfl) (fun _ => rfl) (fun _ => rfl) rfl rfl rfl)).acts

theorem State.quiet_acts : Acts s s.quiet := s.setPort_acts _

theorem State.answer_acts (a : AgentId) (ans : Answer) : Acts s (s.answer a ans) := s.setStation_acts a _

theorem State.answerControl_acts (ans : Answer) : Acts s (s.answerControl ans) := s.setControl_acts _

theorem State.taken_acts (aid : AgentId) (code : Word) : Acts s (s.taken aid code) :=
  s.quiet_acts.then (State.setStation_acts _ aid _)

theorem State.takenControl_acts (code : Word) : Acts s (s.takenControl code) :=
  s.quiet_acts.then (State.setControl_acts _ _)

theorem State.attention_acts (a : AgentId) (on : Bool) :
    Acts s (s.setNotice a { s.notice a with attention := on }) :=
  (Act.calm (.attention s a on) (.of_frame (fun _ => rfl) (fun _ => rfl) (fun _ => rfl) rfl rfl rfl)).acts

theorem State.setTimer_acts {x : Timer} (change : Primitive s (s.setTimer x)) : Acts s (s.setTimer x) :=
  (Act.calm change (.of_frame (fun _ => rfl) (fun _ => rfl) (fun _ => rfl) rfl rfl rfl)).acts

/-- A unit record is written, but not its state. -/
theorem State.setUnit_acts {u : UnitId} {x : UnitRecord} (change : Primitive s (s.setUnit u x))
    (same : x.state = (s.unit u).state) : Acts s (s.setUnit u x) := by
  refine (Act.calm change (.of_frame (fun _ => rfl) (fun v => ?_) (fun _ => rfl) rfl rfl rfl)).acts
  rw [State.unit_setUnit]
  split
  · next h => rw [same, h]
  · rfl

theorem State.setPool_acts {p : PoolId} {x : PoolRecord} (change : Primitive s (s.setPool p x)) :
    Acts s (s.setPool p x) :=
  (Act.calm change (.of_frame (fun _ => rfl) (fun _ => rfl) (fun _ => rfl) rfl rfl rfl)).acts

/-- A record is rewritten for the same agent on the same unit. -/
theorem State.writeRecord_acts {i : SlotId} {r r' : Record} (change : Primitive s (s.writeRecord i (some r')))
    (found : s.record i = some r) (same : r'.hold = r.hold) : Acts s (s.writeRecord i (some r')) :=
  (Act.calm change ⟨State.hold_rewrite found (s.record_writeRecord i _) same, fun _ => .inl rfl, fun _ _ may => may,
    rfl⟩).acts

theorem State.loadRecord_acts {i : SlotId} {r r' : Record} (change : Primitive s (s.loadRecord i (some r')))
    (found : s.record i = some r) (same : r'.hold = r.hold) : Acts s (s.loadRecord i (some r')) :=
  (Act.calm change ⟨State.hold_rewrite found (s.record_loadRecord i _) same, fun _ => .inl rfl, fun _ _ may => may,
    rfl⟩).acts

@[simp] theorem State.setMode_hold (i : SlotId) (m : Mode) (j : SlotId) : (s.setMode i m).hold j = s.hold j := by
  rw [State.hold, State.setMode_record]
  split
  · next h => rw [h, State.hold]; cases s.record i <;> rfl
  · rfl

theorem State.setMode_calm (i : SlotId) (m : Mode) : Calm s (s.setMode i m) :=
  ⟨s.setMode_hold i m, fun v => .inl (by simp),
    fun a u may => by rwa [State.mayBeGranted_congr (s := s) (by simp) (by simp) (by simp)] at may, by simp⟩

theorem State.clearMarkOf_calm (u : UnitId) (i : SlotId) : Calm s (s.clearMarkOf u i) :=
  .of_frame (by simp) (fun v => by rw [State.clearMarkOf_unit]; split <;> rfl) (by simp) (by simp) (by simp) (by simp)

theorem Calm.trans {s t w : State} (first : Calm s t) (second : Calm t w) : Calm s w := by
  refine ⟨fun i => (second.hold i).trans (first.hold i), fun v => ?_,
    fun a u may => first.permits a u (second.permits a u may), second.reset.trans first.reset⟩
  rcases second.state v with same | ⟨draining, offline⟩
  · rw [same]; exact first.state v
  · rcases first.state v with same' | ⟨_, closed⟩
    · exact .inr ⟨same' ▸ draining, offline⟩
    · exact nomatch draining.symm.trans closed

theorem State.upgradeAlone_acts {u : UnitId} {i : SlotId} {r : Record} (found : s.record i = some r)
    (holds : r.isHeldOn u = true) (shared : r.mode = .shared) (alone : s.holders u = [i]) :
    Acts s ((s.clearMarkOf u i).setMode i .exclusive) :=
  (Act.calm (.upgradeAlone s u i r found holds shared alone)
    ((s.clearMarkOf_calm u i).trans (State.setMode_calm _ i .exclusive))).acts

theorem State.downgrade_acts {u : UnitId} {i : SlotId} {r : Record} (found : s.record i = some r)
    (holds : r.isHeldOn u = true) (exclusive : r.mode = .exclusive) (room : 1 < (s.unit u).config.capacity) :
    Acts s (s.setMode i .shared) :=
  (Act.calm (.downgrade s u i r found holds exclusive room) (s.setMode_calm i .shared)).acts

theorem State.markRecalled_acts {i : SlotId} {r : Record} {u : UnitId} {d : Nat} {c : Option Nat}
    (found : s.record i = some r) (holds : r.standing = .held u d c) (grace : (s.unit u).config.grace ≠ 0) :
    Acts s (s.markRecalled i r u d) := by
  refine (Act.calm (.markRecalled s i r u d c found holds grace) ⟨State.hold_rewrite found (s.markRecalled_record i r u d)
    ?_, fun v => .inl ?_, fun a v may => ?_, by simp⟩).acts
  · simp [Record.hold, Record.holding, holds]
  · rw [State.markRecalled_unit, State.clearMarkOf_unit]; split <;> rfl
  · rwa [State.mayBeGranted_congr (s := s) (by simp) (by simp) (by simp)] at may

theorem State.completeDrain_acts (u : UnitId) : Acts s (s.completeDrain u) := by
  refine (Act.calm (.completeDrain s u) ⟨fun i => State.hold_congr (by simp), fun v => ?_, fun a v may => ?_,
    by simp⟩).acts
  · rw [State.completeDrain_unit]
    split
    · next h => exact .inr ⟨h.2.1, rfl⟩
    · exact .inl rfl
  · rwa [State.mayBeGranted_congr (s := s) (by simp) (by simp) (by simp)] at may

theorem State.endWalk_acts (a : AgentId) : Acts s (s.endWalk a) := by
  refine (Act.calm (.endWalk s a) ⟨fun i => State.hold_congr (by simp), fun v => .inl (by simp), fun b v may => ?_,
    by simp⟩).acts
  refine State.mayBeGranted_of_away ?_ (by simp) (by simp) may
  rw [State.endWalk_agent]
  split
  · exact .inr nofun
  · exact .inl rfl

theorem Record.hold_of_isSpent {r : Record} (spent : r.isSpent = true) : r.hold = none := by
  unfold Record.isSpent at spent
  unfold Record.hold Record.holding
  split at spent <;> simp_all

theorem State.beginWalk_acts {a : AgentId} (attached : (s.agent a).state = .attached) : Acts s (s.beginWalk a) := by
  refine (Act.calm (.beginWalk s a attached) ⟨fun i => ?_, fun v => .inl (by simp), fun b v may => ?_, ?_⟩).acts
  · rw [State.hold, State.beginWalk_record]
    split
    · next h =>
      obtain ⟨r, found, gone⟩ := (Option.any_eq_true _ _).mp h
      rw [Bool.and_eq_true] at gone
      rw [State.hold, found, Option.bind_some, Record.hold_of_isSpent gone.2]
      rfl
    · rfl
  · refine State.mayBeGranted_of_away ?_ ?_ ?_ may
    · rw [State.beginWalk_agent]
      split
      · split <;> exact .inr nofun
      · exact .inl rfl
    · refine s.beginWalk_same State.ceiling a ?_ ?_ ?_ ?_ ?_ <;> intros <;> simp
    · refine s.beginWalk_same State.supervisor a ?_ ?_ ?_ ?_ ?_ <;> intros <;> simp
  · refine s.beginWalk_same State.inReset a ?_ ?_ ?_ ?_ ?_ <;> intros <;> simp

end

end Sys2Proof.Machine
end

section
/-! SUPPORT. Which acts each command and event is made of: a row of acts; or, for DRAIN_UNIT, the drain; or, for ACQUIRE and
ACQUIRE_ANY, an allocation, its pass and a row of acts. -/

namespace Sys2Proof.Machine

/-! ### Recall, withdrawal and time -/

theorem State.recall_acts (s : State) (i : SlotId) : Acts s (s.recall i) := by
  unfold State.recall
  split
  · exact .refl
  · next r found =>
    split
    · next u d c holds =>
      split
      · refine (Act.spend s i .revoked fun q here => ?_).acts
        cases found.symm.trans here
        simp [Record.isSpent, holds, Standing.claim, Claim.mayEndAs]
      · next grace =>
        have recalled := s.markRecalled_acts found holds grace
        split
        · exact recalled.then (Act.pass _ none (.unit u)).acts
        · exact recalled
    · exact .refl
    · exact .refl
    · exact .refl

theorem State.recallAll_acts (s : State) (is : List SlotId) : Acts s (s.recallAll is) :=
  Acts.foldl _ (fun s i => s.recall_acts i) is s

/-- A wait may end as WITHDRAWN or TIMED_OUT (R23). -/
theorem Record.mayEnd_of_waiting {r : Record} {x : Target} {d : Nat} {c : Option Nat}
    (waits : r.standing = .waiting x d c) {cause : SpentCause} (fits : cause = .timedOut ∨ cause = .withdrawn) :
    r.isSpent = false ∧ r.standing.claim.mayEndAs cause := by
  refine ⟨by simp [Record.isSpent, waits], ?_⟩
  rw [waits]
  cases x <;> exact fits

/-- A lease may end as EXPIRED or REVOKED (R23). -/
theorem Record.mayEnd_of_holding {r : Record} {u : UnitId} (holds : r.holding = some u) {cause : SpentCause}
    (fits : cause = .expired ∨ cause = .revoked) : r.isSpent = false ∧ r.standing.claim.mayEndAs cause := by
  refine ⟨Record.isSpent_of_holding holds, ?_⟩
  unfold Record.holding at holds
  cases standing : r.standing <;> simp_all [Standing.claim, Claim.mayEndAs]

theorem Record.isWaiting_iff {r : Record} : r.isWaiting = true ↔ ∃ x d c, r.standing = .waiting x d c := by
  unfold Record.isWaiting
  cases r.standing <;> simp

theorem State.withdraw_acts (s : State) (i : SlotId) : Acts s (s.withdraw i) := by
  unfold State.withdraw
  split
  · next waits =>
    refine (Act.spend s i .withdrawn fun r found => ?_).acts
    rw [found, Option.any_some] at waits
    obtain ⟨x, d, c, standing⟩ := Record.isWaiting_iff.mp waits
    exact Record.mayEnd_of_waiting standing (.inr rfl)
  · exact .refl

theorem State.withdrawAll_acts (s : State) (is : List SlotId) : Acts s (s.withdrawAll is) :=
  Acts.foldl _ (fun s i => s.withdraw_acts i) is s

/-- The cause of an expiry is one that the record's kind admits (R113 to R115). -/
theorem Record.mayEnd_of_expiry {r : Record} {cause : SpentCause} (expires : r.standing.expiry = some cause) :
    r.isSpent = false ∧ r.standing.claim.mayEndAs cause := by
  cases standing : r.standing with
  | waiting x d c => cases standing ▸ expires; exact standing ▸ Record.mayEnd_of_waiting standing (.inl rfl)
  | held u d c =>
    cases standing ▸ expires
    exact standing ▸ Record.mayEnd_of_holding (Record.holding_of_held standing) (.inl rfl)
  | recalled u d g =>
    cases standing ▸ expires
    exact standing ▸ Record.mayEnd_of_holding (u := u) (by simp [Record.holding, standing]) (.inr rfl)
  | spent k e => cases standing ▸ expires

theorem Record.hold_lowered (r : Record) (c : Nat) :
    Record.hold { r with standing := r.standing.lowered c } = r.hold := by
  unfold Record.hold Record.holding Standing.lowered
  cases r.standing <;> rfl

theorem State.lowerCountdown_acts (s : State) (i : SlotId) : Acts s (s.lowerCountdown i) := by
  unfold State.lowerCountdown
  split
  · exact .refl
  · next r found =>
    split
    · next c cause present expires =>
      split
      · refine (Act.spend s i cause fun q here => ?_).acts
        cases found.symm.trans here
        exact Record.mayEnd_of_expiry expires
      · next more => exact s.writeRecord_acts (.countdown s i r c found present (by omega)) found (r.hold_lowered _)
    · exact .refl

theorem State.takeTick_acts (s : State) : Acts s s.takeTick :=
  s.setTimer_acts (.timer s _ rfl rfl (.inl rfl) (.inl rfl) (.inr (.inl rfl)))

theorem State.arrive_acts (s : State) (i : SlotId) : Acts s (s.arrive i) := by
  have arrived : Acts s (s.arrived i) :=
    s.setTimer_acts (.timer s _ rfl rfl (.inl rfl) (.inl rfl) (.inr (.inr ⟨i, rfl⟩)))
  unfold State.arrive
  split
  · exact .refl
  · split
    · exact arrived
    · exact arrived.then (State.lowerCountdown_acts _ i)

theorem State.clockEdge_acts (s : State) (tkin : Bool) : Acts s (s.clockEdge tkin) := by
  unfold State.clockEdge
  dsimp only
  split
  · exact .refl
  · next internal =>
    split
    · have restarted : Acts s (s.setTimer { s.timer with count := 0 }) :=
        s.setTimer_acts (.timer s _ rfl rfl (.inr ⟨internal, .inl rfl⟩) (.inl rfl) (.inl rfl))
      exact restarted.then (State.takeTick_acts _)
    · next below =>
      exact s.setTimer_acts (.timer s _ rfl rfl (.inr ⟨internal, .inr (by simpa using below)⟩) (.inl rfl) (.inl rfl))
  · next pin =>
    have sampled : Acts s (s.setTimer { s.timer with reference := some tkin }) :=
      s.setTimer_acts (.timer s _ rfl rfl (.inl rfl) (.inr pin) (.inl rfl))
    split
    · exact sampled.then (State.takeTick_acts _)
    · exact sampled

theorem State.poolPasses_acts (s : State) (ps : List PoolId) : Acts s (s.poolPasses ps) :=
  Acts.foldl _ (fun s p => (Act.pass s none (.pool p)).acts) ps s

theorem State.unitPasses_acts (s : State) (us : List UnitId) : Acts s (s.unitPasses us) :=
  Acts.foldl _ (fun s u => (Act.pass s none (.unit u)).acts) us s

/-! ### Runs -/

/-- What a command or an event other than the two resets and POWER_ON makes of the state. -/
inductive Run (s : State) : State → Prop where
  | acts {t : State} (acts : Acts s t) : Run s t
  | drain {p : State} (before : Acts s p) (u : UnitId) (opened : (p.unit u).state = .opened) : Run s (p.drain u)
  | request {aid : AgentId} {code : Word} {p t : State} (here : p = s.taken aid code) {i : SlotId} {mode : Mode}
      {x : Target} {requested waitLimit : Nat}
      (new : Allocation p (p.allocate i aid mode x requested waitLimit)) (lowest : p.freeSlot = some i)
      (after : Acts ((p.allocate i aid mode x requested waitLimit).passOn (some i) x) t) : Run s t

/-- A command or an event that gives a next state by a run. -/
def Result.Runs (s : State) (r : Result) : Prop := ∃ t, r = .next t ∧ Run s t

theorem atAgentStation_runs {code : Word} {aid : AgentId} {body : State → State} {s : State}
    (h : Run s (body (s.taken aid code))) : Result.Runs s (atAgentStation code aid body s) := by
  unfold atAgentStation
  dsimp only
  split
  · exact ⟨_, rfl, .acts s.quiet_acts⟩
  · exact ⟨_, rfl, h⟩

theorem atAgentStation_runs_acts {code : Word} {aid : AgentId} {body : State → State} {s : State}
    (h : ∀ s, Acts s (body s)) : Result.Runs s (atAgentStation code aid body s) :=
  atAgentStation_runs (.acts ((s.taken_acts aid code).then (h _)))

theorem atControlStation_runs {code : Word} {aid : AgentId} {body : State → State} {s : State}
    (h : Run s (body (s.takenControl code))) : Result.Runs s (atControlStation code aid body s) := by
  unfold atControlStation
  dsimp only
  split
  · exact ⟨_, rfl, .acts s.quiet_acts⟩
  · split
    · exact ⟨_, rfl, h⟩
    · exact ⟨_, rfl, .acts (s.quiet_acts.then (State.setPort_acts _ _))⟩

theorem atControlStation_runs_acts {code : Word} {aid : AgentId} {body : State → State} {s : State}
    (h : ∀ s, Acts s (body s)) : Result.Runs s (atControlStation code aid body s) :=
  atControlStation_runs (.acts ((s.takenControl_acts code).then (h _)))

theorem asEvent_runs {body : State → State} {s : State} (h : ∀ s, Acts s (body s)) :
    Result.Runs s (asEvent body s) := by
  unfold asEvent
  dsimp only
  split
  · exact ⟨_, rfl, .acts s.quiet_acts⟩
  · exact ⟨_, rfl, .acts (s.quiet_acts.then (h _))⟩

/-! ### Commands of an agent station -/

section

variable (aid : AgentId) (s : State)

theorem execAttach_runs : Result.Runs s (execAttach aid s) := by
  refine atAgentStation_runs_acts fun s => ?_
  dsimp only
  split
  · exact s.answer_acts _ _
  · exact s.answer_acts _ _
  · next free =>
    split
    · exact s.answer_acts _ _
    · next quota =>
      exact ((Act.attach s aid free quota).acts.then (State.attention_acts _ aid true)).then (State.answer_acts _ _ _)

theorem execDetach_runs : Result.Runs s (execDetach aid s) := by
  refine atAgentStation_runs_acts fun s => ?_
  split
  · next attached => exact s.beginWalk_acts ((s.isAttached_iff aid).mp attached)
  · exact s.answer_acts _ _

theorem State.answerRequest_acts (i : SlotId) (x : Target) (w : Nat) : Acts s (s.answerRequest aid i x w) := by
  unfold State.answerRequest
  split
  · exact s.answer_acts _ _
  · split
    · exact s.answer_acts _ _
    · split
      · exact (Act.retire s i).acts.then (State.answer_acts _ _ _)
      · exact s.answer_acts _ _

theorem State.deepen_acts {i : SlotId} {r : Record} {u : UnitId} {d : Nat} {c : Option Nat}
    (found : s.record i = some r) (holds : r.standing = .held u d c) (low : d < 15) : Acts s (s.deepen i) := by
  have deeper := s.writeRecord_acts (.depth s i r u d (d + 1) c found holds (by omega) (.inl (by omega))) found
    (by simp [Record.hold, Record.holding, holds])
  unfold State.deepen
  rw [found]
  dsimp only
  rw [holds]
  exact deeper

/-- A request that its checks decided: refused, nested, or created in the lowest FREE slot. -/
theorem State.takeRequest_run {code : Word} {p : State} (here : p = s.taken aid code) (c : RequestCase)
    (create : ∀ i m x d w, c = .create i m x d w →
      Allocation p (p.allocate i aid m x d w) ∧ p.freeSlot = some i)
    (nested : ∀ i, c = .nested i → ∃ r u d k, p.record i = some r ∧ r.standing = .held u d k ∧ d < 15) :
    Run s (p.takeRequest aid c) := by
  have taken : Acts s p := here ▸ s.taken_acts aid code
  unfold State.takeRequest
  split
  · exact .acts (taken.then (p.answer_acts _ _))
  · next i =>
    obtain ⟨r, u, d, k, found, holds, low⟩ := nested i rfl
    have deeper := taken.then (p.deepen_acts found holds low)
    dsimp only
    split
    · exact .acts deeper
    · exact .acts (deeper.then (State.answer_acts _ _ _))
  · next i m x d w =>
    obtain ⟨new, lowest⟩ := create i m x d w rfl
    exact .request here new lowest (State.answerRequest_acts _ _ _ _ _)

theorem State.requestSlot_lowest {s : State} {m m' : Mode} {x x' : Target} {d d' w w' : Nat} {i : SlotId}
    (h : s.requestSlot aid m x d w = .create i m' x' d' w') : s.freeSlot = some i := by
  unfold State.requestSlot at h
  split at h
  · cases h
  · split at h
    · cases h
    · next free => cases h; exact free

theorem State.acquireCase_lowest {s : State} {m : Mode} {x : Target} {d w : Nat} {i : SlotId}
    (h : s.acquireCase aid = .create i m x d w) : s.freeSlot = some i := by
  unfold State.acquireCase State.acquireOpen at h
  dsimp only at h
  split at h
  · cases h
  split at h
  · cases h
  split at h
  · cases h
  split at h
  · cases h
  split at h
  · cases h
  · cases h
  split at h
  · split at h
    · cases h
    split at h
    · cases h
    split at h
    · split at h
      · split at h <;> cases h
      · cases h
    · split at h
      · cases h
      · exact State.requestSlot_lowest aid h
  · cases h

theorem State.acquireAnyCase_lowest {s : State} {m : Mode} {x : Target} {d w : Nat} {i : SlotId}
    (h : s.acquireAnyCase aid = .create i m x d w) : s.freeSlot = some i := by
  unfold State.acquireAnyCase at h
  dsimp only at h
  split at h
  · cases h
  split at h
  · cases h
  split at h
  · cases h
  split at h
  · cases h
  split at h
  · cases h
  · exact State.requestSlot_lowest aid h

theorem execAcquire_runs : Result.Runs s (execAcquire aid s) :=
  atAgentStation_runs (State.takeRequest_run aid s rfl _
    (fun _ _ _ _ _ h => ⟨State.acquireCase_create _ _ _ _ _ _ _ h, State.acquireCase_lowest aid h⟩)
    fun i h => State.acquireCase_nested _ aid i h)

theorem execAcquireAny_runs : Result.Runs s (execAcquireAny aid s) :=
  atAgentStation_runs (State.takeRequest_run aid s rfl _
    (fun _ _ _ _ _ h => ⟨State.acquireAnyCase_create _ _ _ _ _ _ _ h, State.acquireAnyCase_lowest aid h⟩)
    fun i h => absurd h (State.acquireAnyCase_nested _ aid i))

theorem State.retireAnswer_acts (i : SlotId) (ans : Answer) : Acts s ((s.retire i).answer aid ans) :=
  (Act.retire s i).acts.then (State.answer_acts _ _ _)

/-- A command on a record that is named by handle: each body is a row of acts where the slot holds the record. -/
theorem withHandle_runs {code : Word} {body : State → SlotId → Record → State}
    (h : ∀ s i r, s.record i = some r → Acts s (body s i r)) :
    Result.Runs s (atAgentStation code aid (fun s => s.withHandle aid (body s)) s) :=
  atAgentStation_runs_acts fun s => State.withHandle_cases (P := Acts s) (s.answer_acts aid) (h s)

theorem execRelease_runs : Result.Runs s (execRelease aid s) := by
  refine withHandle_runs aid s fun s i r found => ?_
  unfold State.releaseRecord
  split
  · exact s.answer_acts _ _
  · next full _ =>
    dsimp only
    split
    · exact s.answer_acts _ _
    · next u d c holds =>
      by_cases gone : (if full = true then 0 else d - 1) = 0
      · rw [if_pos gone]
        exact s.retireAnswer_acts _ _ _
      · rw [if_neg gone]
        refine (s.writeRecord_acts (.depth s i r u d _ c found holds (Nat.one_le_iff_ne_zero.mpr gone)
          (.inr (depthLeft_le full d))) found ?_).then (State.answer_acts _ _ _)
        simp [Record.hold, Record.holding, holds]
    · exact s.retireAnswer_acts _ _ _
    · exact s.retireAnswer_acts _ _ _

theorem execRenew_runs : Result.Runs s (execRenew aid s) := by
  refine withHandle_runs aid s fun s i r found => ?_
  unfold State.renewRecord
  dsimp only
  split
  · exact s.answer_acts _ _
  · split
    · exact s.answer_acts _ _
    · next u d c holds =>
      refine (s.loadRecord_acts (.renew s i r u d c _ found holds (by omega)) found ?_).then (State.answer_acts _ _ _)
      simp [Record.hold, Record.holding, holds]
    · exact s.answer_acts _ _
    · exact s.answer_acts _ _

theorem State.upgradeShared_acts {i : SlotId} {r : Record} {u : UnitId} (found : s.record i = some r)
    (holds : r.isHeldOn u = true) (shared : r.mode = .shared) : Acts s (s.upgradeShared aid i r u) := by
  unfold State.upgradeShared
  dsimp only
  split
  · next alone => exact (s.upgradeAlone_acts found holds shared alone).then (State.answer_acts _ _ _)
  · split
    · next unmarked =>
      exact (s.setUnit_acts (.setMark s u i r found holds shared unmarked) rfl).then (State.answer_acts _ _ _)
    · split
      · exact s.answer_acts _ _
      · exact s.answer_acts _ _

theorem execUpgrade_runs : Result.Runs s (execUpgrade aid s) := by
  refine withHandle_runs aid s fun s i r found => ?_
  unfold State.upgradeRecord
  split
  · exact s.answer_acts _ _
  · next u d c holds =>
    split
    · exact s.answer_acts _ _
    · next shared => exact s.upgradeShared_acts aid found (Record.isHeldOn_of holds) shared
  · exact s.answer_acts _ _
  · exact s.answer_acts _ _

theorem execDowngrade_runs : Result.Runs s (execDowngrade aid s) := by
  refine withHandle_runs aid s fun s i r found => ?_
  unfold State.downgradeRecord
  split
  · exact s.answer_acts _ _
  · next u d c holds =>
    split
    · exact s.answer_acts _ _
    · next exclusive =>
      split
      · exact s.answer_acts _ _
      · exact ((s.downgrade_acts found (Record.isHeldOn_of holds) exclusive (by omega)).then
          (Act.pass _ none (.unit u)).acts).then (State.answer_acts _ _ _)
  · exact s.answer_acts _ _
  · exact s.answer_acts _ _

theorem execCancel_runs : Result.Runs s (execCancel aid s) := by
  refine withHandle_runs aid s fun s i r found => ?_
  unfold State.cancelRecord
  split
  · exact s.retireAnswer_acts _ _ _
  · next u _ _ _ =>
    split
    · exact ((s.setUnit_acts (.clearMark s u) rfl).then (Act.pass _ none (.unit u)).acts).then (State.answer_acts _ _ _)
    · exact s.answer_acts _ _
  · exact s.answer_acts _ _
  · exact s.retireAnswer_acts _ _ _

theorem execQueryLease_runs : Result.Runs s (execQueryLease aid s) :=
  withHandle_runs aid s fun s _ _ _ => s.answer_acts _ _

theorem State.readUnit_acts (answer : UnitId → Answer) : Acts s (s.readUnit aid answer) := by
  unfold State.readUnit
  split
  · exact s.answer_acts _ _
  · split <;> exact s.answer_acts _ _

theorem execQueryUnit_runs : Result.Runs s (execQueryUnit aid s) :=
  atAgentStation_runs_acts fun s => s.readUnit_acts aid _

theorem execProbe_runs : Result.Runs s (execProbe aid s) :=
  atAgentStation_runs_acts fun s => s.readUnit_acts aid _

/-- The end of a SPENT record calls no pass (R128). -/
theorem State.afterDeparture_of_isSpent {r : Record} (spent : r.isSpent = true) : s.afterDeparture r = s := by
  unfold Record.isSpent at spent
  unfold State.afterDeparture
  split at spent <;> simp_all

/-- The entry that is read leaves the queue, and with it the SPENT record that it reports on (R128). -/
theorem State.readEntry_acts {n : Notice} {rest : List Notice} (head : (s.notice aid).entries = n :: rest) :
    Acts s (if s.handle n.handle.slot == n.handle && (s.record n.handle.slot).any Record.isSpent then
      (s.setNotice aid { s.notice aid with entries := rest }).retire n.handle.slot
      else s.setNotice aid { s.notice aid with entries := rest }) := by
  split
  · next both =>
    rw [Bool.and_eq_true, beq_iff_eq] at both
    obtain ⟨live, spent⟩ := both
    obtain ⟨r, found, spent⟩ := (Option.any_eq_true _ _).mp spent
    have gone : (s.setNotice aid { s.notice aid with entries := rest }).retire n.handle.slot =
        (s.setNotice aid { s.notice aid with entries := rest }).remove n.handle.slot r := by
      unfold State.retire
      rw [State.setNotice_record, found]
      exact State.afterDeparture_of_isSpent _ spent
    rw [gone]
    refine (Act.calm (.readSpent s aid n rest r head live found spent) ⟨fun j => ?_, fun v => .inl ?_, fun b v may => ?_,
      by simp⟩).acts
    · rw [State.hold, State.remove_record]
      split
      · next h => rw [h, State.hold, found, Option.bind_some, Record.hold_of_isSpent spent]; rfl
      · rfl
    · rw [State.remove_unit, State.leavePlace_unit]; rfl
    · refine State.mayBeGranted_of_away ?_ (by simp) (by simp) may
      rw [State.remove_agent]
      split
      · exact .inr nofun
      · exact .inl rfl
  · next other =>
    refine (Act.calm (.readEntry s aid n rest head fun live => ?_)
      (.of_frame (fun _ => rfl) (fun _ => rfl) (fun _ => rfl) rfl rfl rfl)).acts
    simpa [live] using other

theorem execNextNotice_runs : Result.Runs s (execNextNotice aid s) := by
  refine atAgentStation_runs_acts fun s => ?_
  split
  · exact s.answer_acts _ _
  · split
    · exact s.answer_acts _ _
    · next head => exact (s.readEntry_acts aid head).then (State.answer_acts _ _ _)

theorem execSetAttention_runs : Result.Runs s (execSetAttention aid s) := by
  refine atAgentStation_runs_acts fun s => ?_
  split
  · exact s.answer_acts _ _
  · split
    · exact s.answer_acts _ _
    · exact (s.attention_acts aid _).then (State.answer_acts _ _ _)

theorem takeAgentCode_runs (code : Nat) : Result.Runs s (takeAgentCode aid code s) := by
  unfold takeAgentCode
  split
  · exact execAttach_runs aid s
  · exact execDetach_runs aid s
  · exact execAcquire_runs aid s
  · exact execAcquireAny_runs aid s
  · exact execRelease_runs aid s
  · exact execRenew_runs aid s
  · exact execUpgrade_runs aid s
  · exact execDowngrade_runs aid s
  · exact execCancel_runs aid s
  · exact execQueryLease_runs aid s
  · exact execQueryUnit_runs aid s
  · exact execProbe_runs aid s
  · exact execNextNotice_runs aid s
  · exact execSetAttention_runs aid s
  · exact atAgentStation_runs_acts fun s => s.answer_acts _ _

end

/-! ### Commands of the control station -/

section

variable (aid : AgentId) (s : State)

theorem execConfigureUnit_runs : Result.Runs s (execConfigureUnit aid s) := by
  refine atControlStation_runs_acts fun s => ?_
  split
  · exact s.answerControl_acts _
  · next thawed =>
    split
    · exact s.answerControl_acts _
    · split
      · exact s.answerControl_acts _
      · next config spelled =>
        split
        · exact s.answerControl_acts _
        · next offline =>
          split
          · exact s.answerControl_acts _
          · obtain ⟨capacity, grace, limit⟩ := unitConfigOf_range spelled
            exact (s.setUnit_acts (.configureUnit s _ config (by simpa using thawed) (by simpa using offline) capacity
              grace limit) rfl).then (State.answerControl_acts _ _)

theorem execConfigurePool_runs : Result.Runs s (execConfigurePool aid s) := by
  refine atControlStation_runs_acts fun s => ?_
  split
  · exact s.answerControl_acts _
  · next thawed =>
    split
    · exact s.answerControl_acts _
    · split
      · exact s.answerControl_acts _
      · split
        · exact s.answerControl_acts _
        · next empty =>
          exact (s.setPool_acts (.configurePool s _ _ _ (by simpa using thawed) (by simpa using empty))).then
            (State.answerControl_acts _ _)

/-- A lower ceiling makes nobody eligible. -/
theorem State.lowerCeiling_acts {c : Nat} (thawed : s.frozen = false) (range : c ≤ 64) (lower : c ≤ s.ceiling)
    (clear : ∀ u : UnitId, c ≤ u.val → u.val < s.ceiling → s.occupiedBy u (fun a => !s.clearance a) = false) :
    Acts s { s with ceiling := c } := by
  refine (Act.calm (.ceiling s c thawed range (.inr clear)) ⟨fun _ => rfl, fun _ => .inl rfl, fun a u may => ?_,
    rfl⟩).acts
  obtain ⟨attached, free, permitted⟩ := (State.mayBeGranted_iff _ a u).mp may
  exact (s.mayBeGranted_iff a u).mpr ⟨attached, free, permitted.imp_left fun below => Nat.lt_of_lt_of_le below lower⟩

theorem execSetBand_runs : Result.Runs s (execSetBand aid s) := by
  refine atControlStation_runs_acts fun s => ?_
  split
  · exact s.answerControl_acts _
  · next thawed =>
    dsimp only
    split
    · exact s.answerControl_acts _
    · unfold State.setCeiling
      split
      · next rises =>
        exact ((Act.raise s _ (by simpa using thawed) (by omega) rises).acts.then (State.poolPasses_acts _ _)).then
          (State.answerControl_acts _ _)
      · split
        · exact s.answerControl_acts _
        · next none =>
          refine (s.lowerCeiling_acts (by simpa using thawed) (by omega) (by omega) fun u low high => ?_).then
            (State.answerControl_acts _ _)
          simpa using List.find?_eq_none.mp none u (mem_unitsFrom.mpr ⟨low, high⟩)

theorem execSetClearance_runs : Result.Runs s (execSetClearance aid s) := by
  refine atControlStation_runs_acts fun s => ?_
  split
  · exact s.answerControl_acts _
  · next thawed =>
    split
    · exact s.answerControl_acts _
    · split
      · exact s.answerControl_acts _
      · next yes _ =>
        split
        · exact s.answerControl_acts _
        · unfold State.writeClearance
          dsimp only
          split
          · exact s.answerControl_acts _
          · split
            · next given =>
              exact ((Act.clearance s _ yes (by simpa using thawed) (.inl given)).acts.then
                (State.poolPasses_acts _ _)).then (State.answerControl_acts _ _)
            · split
              · exact s.answerControl_acts _
              · next none =>
                refine (Act.clearance s _ yes (by simpa using thawed) (.inr fun u low => ?_)).acts.then
                  (State.answerControl_acts _ _)
                simpa using List.find?_eq_none.mp none u (mem_unitsFrom.mpr ⟨low, u.isLt⟩)

theorem State.setQuota_acts {a : AgentId} {q : Nat} (thawed : s.frozen = false) (range : q ≤ 8)
    (room : s.recordCount a ≤ q) : Acts s (s.setAgent a { s.agent a with quota := q }) := by
  refine (Act.calm (.quota s a q thawed range room) ⟨fun _ => rfl, fun _ => .inl rfl, fun b v may => ?_, rfl⟩).acts
  rw [State.mayBeGranted_iff, State.clearance_iff, State.agent_setAgent] at may
  rw [State.mayBeGranted_iff, State.clearance_iff]
  split at may
  · next h => exact h ▸ may
  · exact may

theorem execSetQuota_runs : Result.Runs s (execSetQuota aid s) := by
  refine atControlStation_runs_acts fun s => ?_
  split
  · exact s.answerControl_acts _
  · next thawed =>
    split
    · exact s.answerControl_acts _
    · dsimp only
      split
      · exact s.answerControl_acts _
      · split
        · exact s.answerControl_acts _
        · exact (s.setQuota_acts (by simpa using thawed) (by omega) (by omega)).then (State.answerControl_acts _ _)

theorem tickSetupOf_range {st : Station} {source : TickSource} {divider : Nat}
    (h : tickSetupOf st = some (source, divider)) : 16 ≤ divider ∧ divider ≤ 65536 := by
  unfold tickSetupOf at h
  simp only [Option.bind_eq_bind, Option.bind_eq_some_iff] at h
  obtain ⟨_, _, h⟩ := h
  split at h
  · next range => cases h; exact range
  · cases h

theorem execSetTick_runs : Result.Runs s (execSetTick aid s) := by
  refine atControlStation_runs_acts fun s => ?_
  split
  · exact s.answerControl_acts _
  · next thawed =>
    split
    · exact s.answerControl_acts _
    · next source divider setup =>
      obtain ⟨low, high⟩ := tickSetupOf_range setup
      exact (s.setTimer_acts (.setTick s source divider (by simpa using thawed) low high)).then
        (State.answerControl_acts _ _)

theorem execOpenUnit_runs : Result.Runs s (execOpenUnit aid s) := by
  refine atControlStation_runs_acts fun s => ?_
  split
  · exact s.answerControl_acts _
  · next u _ =>
    split
    · exact s.answerControl_acts _
    · next offline =>
      have closed : (s.unit u).state ≠ .opened := by rw [not_not.mp offline]; exact nofun
      exact (Act.reopen s u closed).acts.then (State.answerControl_acts _ _)

theorem execDrainUnit_runs : Result.Runs s (execDrainUnit aid s) := by
  have taken := s.takenControl_acts 0x28
  refine atControlStation_runs ?_
  split
  · exact .acts (taken.then (State.answerControl_acts _ _))
  · next u _ =>
    split
    · next opened => exact .drain taken u opened
    · exact .acts (taken.then (State.answerControl_acts _ _))

theorem execRestoreUnit_runs : Result.Runs s (execRestoreUnit aid s) := by
  refine atControlStation_runs_acts fun s => ?_
  split
  · exact s.answerControl_acts _
  · next u _ =>
    split
    · next draining =>
      have closed : (s.unit u).state ≠ .opened := by rw [draining]; exact nofun
      exact (Act.reopen s u closed).acts.then (State.answerControl_acts _ _)
    · exact s.answerControl_acts _

theorem execRecallLease_runs : Result.Runs s (execRecallLease aid s) := by
  refine atControlStation_runs_acts fun s => ?_
  split
  · exact s.answerControl_acts _
  · split
    · exact s.answerControl_acts _
    · unfold State.recallRecord
      dsimp only
      split
      · exact s.answerControl_acts _
      · exact s.answerControl_acts _
      · exact (s.recall_acts _).then (State.answerControl_acts _ _)
      · exact s.answerControl_acts _

theorem execRecallUnit_runs : Result.Runs s (execRecallUnit aid s) := by
  refine atControlStation_runs_acts fun s => ?_
  split
  · exact s.answerControl_acts _
  · exact (s.recallAll_acts _).then (State.answerControl_acts _ _)

theorem State.onAttachedAgent_acts (body : AgentId → State)
    (h : ∀ a, (s.agent a).state = .attached → Acts s (body a)) : Acts s (s.onAttachedAgent body) := by
  unfold State.onAttachedAgent
  split
  · exact s.answerControl_acts _
  · split
    · exact s.answerControl_acts _
    · exact s.answerControl_acts _
    · next attached => exact h _ attached

/-- A held flag that is set makes nobody eligible. -/
theorem State.setHeld_acts {a : AgentId} (attached : (s.agent a).state = .attached) :
    Acts s (s.setAgent a { s.agent a with held := true }) := by
  refine (Act.calm (.hold s a true attached) ⟨fun _ => rfl, fun _ => .inl rfl, fun b v may => ?_, rfl⟩).acts
  by_cases same : b = a
  · subst same
    obtain ⟨_, free, _⟩ := (State.mayBeGranted_iff _ b v).mp may
    rw [State.agent_setAgent_self] at free
    cases free
  · rwa [State.mayBeGranted_congr (s := s) (State.agent_setAgent_of_ne _ _ same) rfl rfl] at may

theorem execHoldAgent_runs : Result.Runs s (execHoldAgent aid s) := by
  refine atControlStation_runs_acts fun s => s.onAttachedAgent_acts _ fun a attached => ?_
  split
  · exact s.answerControl_acts _
  · exact ((s.setHeld_acts attached).then (State.unitPasses_acts _ _)).then (State.answerControl_acts _ _)

theorem execResumeAgent_runs : Result.Runs s (execResumeAgent aid s) := by
  refine atControlStation_runs_acts fun s => s.onAttachedAgent_acts _ fun a attached => ?_
  split
  · exact ((Act.resume s a attached).acts.then (State.poolPasses_acts _ _)).then (State.answerControl_acts _ _)
  · exact s.answerControl_acts _

theorem execDetachAgent_runs : Result.Runs s (execDetachAgent aid s) := by
  refine atControlStation_runs_acts fun s => s.onAttachedAgent_acts _ fun a attached => ?_
  exact ((s.setStation_acts a _).then (State.beginWalk_acts (s.setStation a { s.station a with cmd := 0 }) attached)).then
    (State.answerControl_acts _ _)

theorem State.setBottomOf_acts (x : Target) : Acts s (s.setBottomOf x) := by
  unfold State.setBottomOf
  split
  · exact s.answerControl_acts _
  · next a _ =>
    have written : Acts s (s.writeBottom x a) := by
      cases x with
      | unit u => exact s.setUnit_acts (.unitBottom s u a) rfl
      | pool p => exact s.setPool_acts (.poolBottom s p a)
    exact (written.then (Act.pass _ none x).acts).then (State.answerControl_acts _ _)

theorem execSetBottom_runs : Result.Runs s (execSetBottom aid s) := by
  refine atControlStation_runs_acts fun s => ?_
  dsimp only
  split
  · exact s.answerControl_acts _
  · split
    · exact s.answerControl_acts _
    · exact s.setBottomOf_acts _
  · split
    · exact s.answerControl_acts _
    · exact s.setBottomOf_acts _

theorem State.freeze_acts : Acts s { s with frozen := true } :=
  (Act.calm (.freeze s) (.of_frame (fun _ => rfl) (fun _ => rfl) (fun _ => rfl) rfl rfl rfl)).acts

theorem State.completions_acts (drained : Vector Bool 64) (detached : Vector Bool 16) :
    Acts s { s with drained := drained, detached := detached } :=
  (Act.calm (.completions s drained detached) (.of_frame (fun _ => rfl) (fun _ => rfl) (fun _ => rfl) rfl rfl rfl)).acts

theorem State.controlAttention_acts (on : Bool) : Acts s { s with controlAttention := on } :=
  (Act.calm (.controlAttention s on) (.of_frame (fun _ => rfl) (fun _ => rfl) (fun _ => rfl) rfl rfl rfl)).acts

theorem execFreeze_runs : Result.Runs s (execFreeze aid s) :=
  atControlStation_runs_acts fun s => s.freeze_acts.then (State.answerControl_acts _ _)

theorem execResetLive_runs : Result.Runs s (execResetLive aid s) :=
  atControlStation_runs_acts fun s => (Act.clear s).acts.then (State.answerControl_acts _ _)

theorem execReadCompletions_runs : Result.Runs s (execReadCompletions aid s) := by
  refine atControlStation_runs_acts fun s => ?_
  split
  · exact s.answerControl_acts _
  · exact (s.completions_acts _ _).then (State.answerControl_acts _ _)

theorem execSetControlAttention_runs : Result.Runs s (execSetControlAttention aid s) := by
  refine atControlStation_runs_acts fun s => ?_
  split
  · exact s.answerControl_acts _
  · next on _ => exact (s.controlAttention_acts on).then (State.answerControl_acts _ _)

theorem execInspectRecord_runs : Result.Runs s (execInspectRecord aid s) := by
  refine atControlStation_runs_acts fun s => ?_
  split <;> exact s.answerControl_acts _

theorem execListHolder_runs : Result.Runs s (execListHolder aid s) := by
  refine atControlStation_runs_acts fun s => ?_
  split
  · exact s.answerControl_acts _
  · dsimp only
    split <;> exact s.answerControl_acts _

theorem takeControlCode_runs (code : Nat) : Result.Runs s (takeControlCode aid code s) := by
  unfold takeControlCode
  split
  · exact execConfigureUnit_runs aid s
  · exact execConfigurePool_runs aid s
  · exact execSetBand_runs aid s
  · exact execSetClearance_runs aid s
  · exact execSetQuota_runs aid s
  · exact execSetTick_runs aid s
  · exact execOpenUnit_runs aid s
  · exact execDrainUnit_runs aid s
  · exact execRestoreUnit_runs aid s
  · exact execRecallLease_runs aid s
  · exact execRecallUnit_runs aid s
  · exact execHoldAgent_runs aid s
  · exact execResumeAgent_runs aid s
  · exact execDetachAgent_runs aid s
  · exact execSetBottom_runs aid s
  · exact execFreeze_runs aid s
  · exact execResetLive_runs aid s
  · exact execReadCompletions_runs aid s
  · exact execSetControlAttention_runs aid s
  · exact execInspectRecord_runs aid s
  · exact execListHolder_runs aid s
  · exact atControlStation_runs_acts fun s => s.answerControl_acts _

end

/-! ### The other bus accesses and the events -/

section

variable (aid : AgentId) (s : State)

theorem takeCode_runs (w : Window) (data : Word) : Result.Runs s (takeCode w aid data s) := by
  cases w with
  | agent => exact takeAgentCode_runs aid s _
  | control => exact takeControlCode_runs aid s _

theorem storeWord_runs (o : WordOffset) (data : Word) : Result.Runs s (storeWord aid o data s) := by
  unfold storeWord
  dsimp only
  split
  · exact ⟨_, rfl, .acts s.quiet_acts⟩
  split
  · split
    · exact ⟨_, rfl, .acts s.quiet_acts⟩
    · exact ⟨_, rfl, .acts (s.quiet_acts.then (State.setStation_acts _ _ _))⟩
  split
  · split
    · exact ⟨_, rfl, .acts (s.quiet_acts.then (State.setControl_acts _ _))⟩
    · exact ⟨_, rfl, .acts (s.quiet_acts.then (State.setPort_acts _ _))⟩
  · exact ⟨_, rfl, .acts s.quiet_acts⟩

theorem portWrite_runs (o : WordOffset) (data : Word) : Result.Runs s (portWrite aid o data s) := by
  unfold portWrite
  split
  · exact takeCode_runs aid s _ _
  · split
    · exact takeCode_runs aid s _ _
    · exact storeWord_runs aid s _ _

theorem execControlWindowRefused_runs (o : WordOffset) (access : Access) :
    Result.Runs s (execControlWindowRefused aid o access s) := by
  cases access with
  | read => exact ⟨_, rfl, .acts (s.setPort_acts _)⟩
  | write data => exact portWrite_runs aid s o data

theorem State.arriveIf_acts (i : SlotId) (due : Bool) : Acts s (if due then s.arrive i else s) := by
  split
  · exact s.arrive_acts i
  · exact .refl

theorem execTick_runs : Result.Runs s (execTick s) := by
  refine asEvent_runs fun s => ?_
  split
  · exact s.clockEdge_acts true
  · exact .refl

theorem execWithdrawalStep_runs (a : AgentId) : Result.Runs s (execWithdrawalStep a s) := by
  refine asEvent_runs fun s => ?_
  split
  · split
    · exact .refl
    · exact (Act.retire s _).acts
  · exact .refl

theorem execHoldingStep_runs (a : AgentId) : Result.Runs s (execHoldingStep a s) := by
  refine asEvent_runs fun s => ?_
  split
  · split
    · exact .refl
    · exact (Act.retire s _).acts
  · exact .refl

end

/-- Every command and event but the two resets and POWER_ON is a run. -/
theorem exec_runs {c : Instr} (reset : c ≠ .hardwareReset) (release : c ≠ .hardwareResetRelease)
    (powered : ∀ x, c ≠ .powerOn x) (s : State) : Result.Runs s (exec c s) := by
  cases c with
  | attach aid => exact execAttach_runs aid s
  | detach aid => exact execDetach_runs aid s
  | acquire aid => exact execAcquire_runs aid s
  | acquireAny aid => exact execAcquireAny_runs aid s
  | release aid => exact execRelease_runs aid s
  | renew aid => exact execRenew_runs aid s
  | upgrade aid => exact execUpgrade_runs aid s
  | downgrade aid => exact execDowngrade_runs aid s
  | cancel aid => exact execCancel_runs aid s
  | queryLease aid => exact execQueryLease_runs aid s
  | queryUnit aid => exact execQueryUnit_runs aid s
  | probe aid => exact execProbe_runs aid s
  | nextNotice aid => exact execNextNotice_runs aid s
  | setAttention aid => exact execSetAttention_runs aid s
  | configureUnit aid => exact execConfigureUnit_runs aid s
  | configurePool aid => exact execConfigurePool_runs aid s
  | setBand aid => exact execSetBand_runs aid s
  | setClearance aid => exact execSetClearance_runs aid s
  | setQuota aid => exact execSetQuota_runs aid s
  | setTick aid => exact execSetTick_runs aid s
  | openUnit aid => exact execOpenUnit_runs aid s
  | drainUnit aid => exact execDrainUnit_runs aid s
  | restoreUnit aid => exact execRestoreUnit_runs aid s
  | recallLease aid => exact execRecallLease_runs aid s
  | recallUnit aid => exact execRecallUnit_runs aid s
  | holdAgent aid => exact execHoldAgent_runs aid s
  | resumeAgent aid => exact execResumeAgent_runs aid s
  | detachAgent aid => exact execDetachAgent_runs aid s
  | setBottom aid => exact execSetBottom_runs aid s
  | freeze aid => exact execFreeze_runs aid s
  | resetLive aid => exact execResetLive_runs aid s
  | readCompletions aid => exact execReadCompletions_runs aid s
  | setControlAttention aid => exact execSetControlAttention_runs aid s
  | inspectRecord aid => exact execInspectRecord_runs aid s
  | listHolder aid => exact execListHolder_runs aid s
  | undefinedCommand aid w data => exact takeCode_runs aid s w data
  | argumentWrite aid o data => exact portWrite_runs aid s o data
  | busyStationWrite aid o data => exact portWrite_runs aid s o data
  | controlWindowRefused aid o access => exact execControlWindowRefused_runs aid s o access
  | hardwareReset => exact absurd rfl reset
  | powerOn straps => exact absurd rfl (powered straps)
  | tick => exact execTick_runs s
  | tickArrival i => exact asEvent_runs (body := fun s => s.arrive i) fun s => s.arrive_acts i
  | leaseExpiry i =>
    exact asEvent_runs (body := fun s => if s.expiryDue i .expired then s.arrive i else s) fun s => s.arriveIf_acts i _
  | waitTimeout i =>
    exact asEvent_runs (body := fun s => if s.expiryDue i .timedOut then s.arrive i else s) fun s => s.arriveIf_acts i _
  | graceExpiry i =>
    exact asEvent_runs (body := fun s => if s.expiryDue i .revoked then s.arrive i else s) fun s => s.arriveIf_acts i _
  | withdrawalStep a => exact execWithdrawalStep_runs s a
  | holdingStep a => exact execHoldingStep_runs s a
  | walkEnd a => exact asEvent_runs (body := fun s => s.endWalk a) fun s => s.endWalk_acts a
  | drainCompletion u => exact asEvent_runs (body := fun s => s.completeDrain u) fun s => s.completeDrain_acts u
  | clkRisingEdge tkin => exact asEvent_runs (body := fun s => s.clockEdge tkin) fun s => s.clockEdge_acts tkin
  | hardwareResetRelease => exact absurd rfl release

end Sys2Proof.Machine
end

section
/-! SUPPORT. What no command changes: the queue of commands, the supervisor number, RST_N's level and the serials; the
statements that every command completes and that serials count allocations. -/

namespace Sys2Proof.Machine

/-! ### What no pass and no departure writes -/

@[simp] theorem State.passOn_inReset (s : State) (own : Option SlotId) (x : Target) :
    (s.passOn own x).inReset = s.inReset :=
  s.passOn_same State.inReset (by simp) (by simp) (by simp) (by simp) own x

theorem State.afterDeparture_same {α : Type} (f : State → α) (pass : ∀ s own x, f (State.passOn s own x) = f s)
    (drain : ∀ s u, f (State.completeDrain s u) = f s) (s : State) (r : Record) : f (s.afterDeparture r) = f s := by
  unfold State.afterDeparture
  split
  · exact pass s none _
  · exact (drain _ _).trans (pass s none (.unit _))
  · exact (drain _ _).trans (pass s none (.unit _))
  · rfl

/-- What no removal, pass or drain's end changes, no retirement changes. -/
theorem State.retire_same {α : Type} (f : State → α) (remove : ∀ s i r, f (State.remove s i r) = f s)
    (pass : ∀ s own x, f (State.passOn s own x) = f s) (drain : ∀ s u, f (State.completeDrain s u) = f s) (s : State)
    (i : SlotId) : f (s.retire i) = f s := by
  unfold State.retire
  split
  · rfl
  · exact (State.afterDeparture_same f pass drain _ _).trans (remove _ _ _)

/-- What no removal, spending, pass or drain's end changes, the end of a record does not change. -/
theorem State.spend_same {α : Type} (f : State → α) (remove : ∀ s i r, f (State.remove s i r) = f s)
    (mark : ∀ s i r cause, f (State.markSpent s i r cause) = f s)
    (pass : ∀ s own x, f (State.passOn s own x) = f s) (drain : ∀ s u, f (State.completeDrain s u) = f s) (s : State)
    (i : SlotId) (cause : SpentCause) : f (s.spend i cause) = f s := by
  unfold State.spend
  split
  · rfl
  · split
    · exact (State.afterDeparture_same f pass drain _ _).trans (mark _ _ _ _)
    · exact s.retire_same f remove pass drain i

theorem State.unitPasses_same {α : Type} (f : State → α) (pass : ∀ s own x, f (State.passOn s own x) = f s)
    (us : List UnitId) (s : State) : f (s.unitPasses us) = f s := by
  induction us generalizing s with
  | nil => rfl
  | cons u us ih => exact (ih _).trans (pass s none (.unit u))

/-! ### RST_N's level (R178) -/

theorem Act.inReset {s t : State} (act : Act s t) : t.inReset = s.inReset := by
  cases act with
  | calm _ calm => exact calm.reset
  | attach => rfl
  | clearance => rfl
  | pass own x => simp
  | retire i => exact s.retire_same State.inReset (by simp) (by simp) (by simp) i
  | spend i cause => exact s.spend_same State.inReset (by simp) (by simp) (by simp) (by simp) i cause
  | reopen u => exact State.passOn_inReset _ none (.unit u)
  | raise c => exact State.unitPasses_same State.inReset (by simp) _ _
  | resume a => exact State.unitPasses_same State.inReset (by simp) _ _
  | clear => rfl

theorem Acts.inReset {s t : State} (acts : Acts s t) : t.inReset = s.inReset :=
  acts.keeps (P := fun p => p.inReset = s.inReset) (fun _ _ act same => act.inReset.trans same) rfl

/-- The drain of a unit after its state and mark are written: a row of acts. -/
theorem State.drain_acts (s : State) (u : UnitId) :
    Acts (s.setUnit u { s.unit u with state := .draining, mark := none }) (s.drain u) :=
  (((State.withdrawAll_acts _ _).then (State.recallAll_acts _ _)).then (State.completeDrain_acts _ u)).then
    (State.answerControl_acts _ _)

theorem Run.inReset {s t : State} (run : Run s t) : t.inReset = s.inReset := by
  cases run with
  | acts acts => exact acts.inReset
  | drain before u => exact (State.drain_acts _ u).inReset.trans before.inReset
  | request here new lowest after =>
    subst here
    exact after.inReset.trans ((State.passOn_inReset _ _ _).trans (State.allocate_inReset _ _ _ _ _ _ _))

theorem exec_inReset {c : Instr} {s t : State} (reset : c ≠ .hardwareReset) (release : c ≠ .hardwareResetRelease)
    (run : exec c s = .next t) : t.inReset = s.inReset := by
  by_cases powered : ∃ x, c = .powerOn x
  · obtain ⟨x, rfl⟩ := powered
    cases run
    rfl
  · obtain ⟨t', run', steps⟩ := exec_runs reset release (fun x h => powered ⟨x, h⟩) s
    cases run.symm.trans run'
    exact steps.inReset

/-! ### The queue of commands and the supervisor number -/

/-- Nothing but POWER_ON writes the supervisor number, and nothing writes the queue. -/
theorem Primitive.keeps_queue_and_supervisor {s t : State} (change : Primitive s t) :
    t.pending = s.pending ∧ t.supervisor = s.supervisor := by
  cases change with
  | grant => simp
  | upgrade => simp
  | upgradeAlone => simp
  | downgrade => simp
  | remove => simp
  | readSpent => simp
  | spend => simp
  | markRecalled => simp
  | completeDrain => simp
  | endWalk => simp
  | beginWalk a =>
    constructor
    · refine s.beginWalk_same State.pending a ?_ ?_ ?_ ?_ ?_ <;> intros <;> simp
    · refine s.beginWalk_same State.supervisor a ?_ ?_ ?_ ?_ ?_ <;> intros <;> simp
  | _ => exact ⟨rfl, rfl⟩

theorem Allocation.keeps_queue_and_supervisor {s t : State} (new : Allocation s t) :
    t.pending = s.pending ∧ t.supervisor = s.supervisor := by
  obtain ⟨i, a, mode, x, requested, waitLimit⟩ := new
  simp

theorem Steps.keeps_queue_and_supervisor {s t : State} (steps : Steps s t) :
    t.pending = s.pending ∧ t.supervisor = s.supervisor := by
  refine steps.keeps (P := fun p => p.pending = s.pending ∧ p.supervisor = s.supervisor)
    (fun _ _ change same => ?_) (fun _ _ new same => ?_) ⟨rfl, rfl⟩
  · obtain ⟨pending, supervisor⟩ := change.keeps_queue_and_supervisor
    exact ⟨pending.trans same.1, supervisor.trans same.2⟩
  · obtain ⟨pending, supervisor⟩ := new.keeps_queue_and_supervisor
    exact ⟨pending.trans same.1, supervisor.trans same.2⟩

/-- Settles O2: a command is a chain of changes that write neither the queue nor the supervisor number, and a row of acts
that leave RST_N. -/
theorem everyCommandCompletes : Obligations.EveryCommandCompletes := by
  intro c s
  obtain ⟨t, run, powered | steps⟩ := exec_steps c s
  · obtain ⟨x, rfl⟩ := powered
    cases run
    exact ⟨_, rfl, rfl, fun other => absurd rfl (other x), fun _ _ => rfl⟩
  · obtain ⟨pending, supervisor⟩ := steps.keeps_queue_and_supervisor
    exact ⟨t, run, pending, fun _ => supervisor, fun reset release => exec_inReset reset release run⟩

/-! ### Serials (R22, R31) -/

/-- The records that stand after a chain of primitive changes stood before it, each under its agent, and no serial
changes. -/
theorem Chain.records {s t : State} (chain : Chain s t) :
    (∀ i, (t.slot i).serial = (s.slot i).serial) ∧
      ∀ i q, t.record i = some q → ∃ r, s.record i = some r ∧ q.agent = r.agent := by
  refine chain.keeps (P := fun p => (∀ i, (p.slot i).serial = (s.slot i).serial) ∧
      ∀ i q, p.record i = some q → ∃ r, s.record i = some r ∧ q.agent = r.agent)
    (fun p w change ⟨serial, stood⟩ => ⟨fun i => (change.serial i).trans (serial i), fun i q found => ?_⟩)
    ⟨fun _ => rfl, fun i q found => ⟨q, found, rfl⟩⟩
  obtain ⟨r', before, rewritten⟩ := change.record_change found
  obtain ⟨r, start, owner⟩ := stood i r' before
  exact ⟨r, start, rewritten.agent.trans owner⟩

/-- From s to t at most one slot is allocated, the lowest FREE one, under the next serial (R31). -/
def CountsAllocations (s t : State) : Prop :=
  (∀ i, (t.slot i).serial = (s.slot i).serial ∨ (t.slot i).serial = (s.slot i).serial + 1 ∧ LowestFree s i) ∧
    (∀ i r q, s.record i = some r → t.record i = some q →
      (t.slot i).serial = (s.slot i).serial ∧ q.agent = r.agent) ∧
    ∀ i, s.record i = none → t.record i ≠ none → (t.slot i).serial = (s.slot i).serial + 1

theorem Chain.countsAllocations {s t : State} (chain : Chain s t) : CountsAllocations s t := by
  obtain ⟨serial, stood⟩ := chain.records
  refine ⟨fun i => .inl (serial i), fun i r q before after => ⟨serial i, ?_⟩, fun i free stands => ?_⟩
  · obtain ⟨r', before', owner⟩ := stood i q after
    cases before.symm.trans before'
    exact owner
  · obtain ⟨q, after⟩ := Option.ne_none_iff_exists'.mp stands
    obtain ⟨r, before, _⟩ := stood i q after
    exact nomatch free.symm.trans before

theorem State.freeSlot_eq_some {s : State} {i : SlotId} (h : s.freeSlot = some i) : LowestFree s i := by
  obtain ⟨free, below⟩ := List.find?_eq_some_iff_getElem.mp h
  obtain ⟨k, bound, here, earlier⟩ := below
  refine ⟨by simpa using free, fun j lower => ?_⟩
  have place : i.val = k := by rw [← here]; simp [allSlots]
  have before : j.val < i.val := lower
  have here := earlier j.val (place ▸ before)
  simpa [allSlots, Option.isSome_iff_ne_none] using here

theorem Chain.countsAllocations_of_allocate {s p t : State} (slots : ∀ i, p.slot i = s.slot i) {i : SlotId}
    (lowest : p.freeSlot = some i) {a : AgentId} {m : Mode} {x : Target} {d w : Nat}
    (chain : Chain (p.allocate i a m x d w) t) : CountsAllocations s t := by
  obtain ⟨serial, stood⟩ := chain.records
  have records (j : SlotId) : p.record j = s.record j := by rw [State.record, slots, State.record]
  have first : LowestFree s i := by
    obtain ⟨free, below⟩ := State.freeSlot_eq_some lowest
    exact ⟨records i ▸ free, fun j lower => records j ▸ below j lower⟩
  have others {j : SlotId} (other : j ≠ i) : (t.slot j).serial = (s.slot j).serial := by
    rw [serial, State.allocate_serial, if_neg other, slots]
  have new : (t.slot i).serial = (s.slot i).serial + 1 := by
    rw [serial, State.allocate_serial, if_pos rfl, slots]
  refine ⟨fun j => ?_, fun j r q before after => ?_, fun j free stands => ?_⟩
  · by_cases same : j = i
    · subst same; exact .inr ⟨new, first⟩
    · exact .inl (others same)
  · have other : j ≠ i := by
      rintro rfl
      exact nomatch first.1.symm.trans before
    obtain ⟨r', here, owner⟩ := stood j q after
    rw [State.allocate_record, if_neg other, records] at here
    cases before.symm.trans here
    exact ⟨others other, owner⟩
  · obtain ⟨q, after⟩ := Option.ne_none_iff_exists'.mp stands
    by_cases same : j = i
    · subst same; exact new
    · obtain ⟨r, here, _⟩ := stood j q after
      rw [State.allocate_record, if_neg same, records] at here
      exact nomatch free.symm.trans here

theorem Run.countsAllocations {s t : State} (run : Run s t) : CountsAllocations s t := by
  cases run with
  | acts acts => exact acts.chain.countsAllocations
  | drain before u opened => exact (before.chain.then (State.drain_chain _ u opened)).countsAllocations
  | request here new lowest after =>
    refine Chain.countsAllocations_of_allocate (fun i => ?_) lowest ((State.passOn_chain _ _ _).then after.chain)
    rw [here]
    rfl

/-- Settles O60: a run allocates at most the lowest FREE slot and is a chain of primitive changes otherwise, and so are the
two resets. -/
theorem serialsCountAllocations : Obligations.SerialsCountAllocations := by
  intro c s t powered run
  by_cases reset : c = .hardwareReset
  · subst reset
    cases run
    exact (Primitive.hardwareReset s).chain.countsAllocations
  by_cases release : c = .hardwareResetRelease
  · subst release
    cases run
    exact (s.quiet_chain.then (Primitive.resetRelease _).chain).countsAllocations
  obtain ⟨t', run', steps⟩ := exec_runs reset release powered s
  cases run.symm.trans run'
  exact steps.countsAllocations

end Sys2Proof.Machine
end

section
/-! SUPPORT. Units out of service (spec/01 R10, spec/09 R161, R162): what no change but OPEN_UNIT and RESTORE_UNIT does to a
unit that is OFFLINE or DRAINING, what DRAIN_UNIT leaves of its unit, and the statement that every step keeps the laws of
holders and of service. -/

namespace Sys2Proof.Machine

/-! ### A pass leaves every unit's state -/

/-- A primitive change that leaves every unit's state and sets no mark. -/
structure Still (s t : State) : Prop where
  change : Primitive s t
  state : ∀ v, (t.unit v).state = (s.unit v).state
  unmarked : ∀ v, (s.unit v).mark = none → (t.unit v).mark = none

/-- One after another, any number of changes that leave every unit's state and set no mark. -/
abbrev StillChain : State → State → Prop := Relation.ReflTransGen Still

theorem StillChain.then {s t w : State} (first : StillChain s t) (second : StillChain t w) : StillChain s w :=
  Relation.ReflTransGen.trans first second

theorem Still.chain {s t : State} (still : Still s t) : StillChain s t := Relation.ReflTransGen.single still

theorem StillChain.unmarked {s t : State} (chain : StillChain s t) {v : UnitId} (unmarked : (s.unit v).mark = none) :
    (t.unit v).mark = none := by
  induction chain with
  | refl => exact unmarked
  | tail _ last ih => exact last.unmarked v ih

/-- An eligible waiter that is granted leaves every unit's state and mark. -/
theorem State.grant_still {s : State} (own : Option SlotId) {u : UnitId} {i : SlotId}
    (opened : (s.unit u).state = .opened) (eligible : s.eligible i u = true) (fits : s.fits i u = true)
    (unmarked : (s.unit u).mark = none ∨ s.holders u = []) : Still s (s.grant own u i) := by
  obtain ⟨r, x, d, c, found, waits, _⟩ := (s.eligible_iff i u).mp eligible
  rw [State.fits_of_record found] at fits
  exact ⟨.grant s own u i r x d c found waits opened eligible fits unmarked, s.grant_state own u i,
    fun v before => (s.grant_mark own u i v).trans before⟩

theorem State.unitBottom_still (s : State) (u : UnitId) (a : AgentId) :
    Still s (s.setUnit u { s.unit u with bottom := a }) := by
  refine ⟨.unitBottom s u a, fun v => ?_, fun v before => ?_⟩ <;> rw [State.unit_setUnit] <;> split
  · next h => rw [h]
  · rfl
  · next h => rw [← h, before]
  · exact before

theorem State.upgrade_still {s : State} {u : UnitId} {i : SlotId} (opened : (s.unit u).state = .opened)
    (marked : (s.unit u).mark = some i) (alone : s.holders u = [i]) :
    Still s (((s.clearMark u).setMode i .exclusive).post .upgraded i) := by
  refine ⟨.upgrade s u i opened marked alone, fun v => ?_, fun v before => ?_⟩ <;>
    rw [State.post_unit, State.setMode_unit, State.clearMark_unit] <;> split
  · rfl
  · rfl
  · rfl
  · exact before

theorem stageBWalk_still (own : Option SlotId) (u : UnitId) (is : List SlotId) (s : State) (last : Option AgentId)
    (opened : (s.unit u).state = .opened) (unmarked : (s.unit u).mark = none) :
    StillChain s (stageBWalk own u is s last).1 := by
  induction is generalizing s last with
  | nil => exact .refl
  | cons i is ih =>
    unfold stageBWalk
    split
    · next eligible =>
      split
      · next fits =>
        exact (State.grant_still own opened eligible fits (.inl unmarked)).chain.then
          (ih _ _ ((s.grant_state own u i u).trans opened) ((s.grant_mark own u i u).trans unmarked))
      · exact .refl
    · exact ih s last opened unmarked

theorem State.stageB_still (s : State) (own : Option SlotId) (u : UnitId) (opened : (s.unit u).state = .opened)
    (unmarked : (s.unit u).mark = none) : StillChain s (s.stageB own u) := by
  have walk := stageBWalk_still own u (s.rank (s.unit u).config.order (s.unit u).bottom (s.unit u).queue) s none
    opened unmarked
  unfold State.stageB
  dsimp only
  split
  · next e => rw [e] at walk; exact walk
  · next e =>
    rw [e] at walk
    split
    · exact walk.then (State.unitBottom_still _ u _).chain
    · exact walk

theorem State.stageC_still (s : State) (own : Option SlotId) (u : UnitId) (opened : (s.unit u).state = .opened)
    (free : s.holders u = []) : StillChain s (s.stageC own u) := by
  unfold State.stageC
  split
  · exact .refl
  · dsimp only
    split
    · exact .refl
    · next i first =>
      have eligible := List.find?_some first
      obtain ⟨r, _, _, _, found, _⟩ := (s.eligible_iff i u).mp eligible
      have fits : s.fits i u = true := by rw [State.fits_of_record found]; simp [State.compatible, free]
      have granted := (State.grant_still own opened eligible fits (.inr free)).chain
      split
      · exact granted
      · split
        · exact granted.then (Still.chain ⟨.poolBottom _ _ _, fun _ => rfl, fun _ => id⟩)
        · exact granted

theorem State.unitPass_still (s : State) (own : Option SlotId) (u : UnitId) : StillChain s (s.unitPass own u) := by
  unfold State.unitPass
  split
  · exact .refl
  · exact .refl
  · next opened =>
    split
    · next i marked =>
      split
      · next alone => exact (State.upgrade_still opened marked alone).chain
      · exact .refl
    · next unmarked =>
      dsimp only
      have first := s.stageB_still own u opened unmarked
      split
      · next free =>
        exact first.then (State.stageC_still _ own u ((s.stageB_state own u u).trans opened) (List.isEmpty_iff.mp free))
      · exact first

theorem State.offer_still (s : State) (own : Option SlotId) (p : PoolId) (u : UnitId) :
    StillChain s (s.offer own p u) := by
  unfold State.offer
  split
  · next member => exact s.stageC_still own u member.2.1 (List.isEmpty_iff.mp member.2.2)
  · exact .refl

theorem State.passOn_still (s : State) (own : Option SlotId) (x : Target) : StillChain s (s.passOn own x) := by
  cases x with
  | unit u => exact s.unitPass_still own u
  | pool p =>
    show StillChain s (allUnits.foldl (fun s u => s.offer own p u) s)
    generalize allUnits = us
    induction us generalizing s with
    | nil => exact .refl
    | cons u us ih => exact (s.offer_still own p u).then (ih _)

/-! ### What a primitive change does to a unit's service -/

/-- A unit's state changes at OPEN_UNIT and RESTORE_UNIT, at DRAIN_UNIT from OPEN, and to OFFLINE where no holder is
left. -/
theorem Primitive.unit_state {s t : State} (change : Primitive s t) (v : UnitId) :
    (t.unit v).state = (s.unit v).state ∨ (t.unit v).state = .opened ∨
      (s.unit v).state = .opened ∧ (t.unit v).state = .draining ∨ (t.unit v).state = .offline ∧ t.holders v = [] := by
  cases change with
  | grant own u i => exact .inl (s.grant_state own u i v)
  | unitBottom u a => exact .inl ((s.unitBottom_still u a).state v)
  | upgrade u i opened marked alone => exact .inl ((State.upgrade_still opened marked alone).state v)
  | clearMark u => rw [State.clearMark_unit]; split <;> exact .inl rfl
  | setMark u i => rw [State.unit_setUnit]; split <;> simp_all
  | upgradeAlone u i => rw [State.setMode_unit, State.clearMarkOf_unit]; split <;> exact .inl rfl
  | downgrade u i => exact .inl (by simp)
  | remove i r => rw [State.remove_unit, State.leavePlace_unit]; exact .inl rfl
  | readSpent a n rest r => rw [State.remove_unit, State.leavePlace_unit]; exact .inl rfl
  | spend i r cause => rw [State.markSpent_unit, State.leavePlace_unit]; exact .inl rfl
  | markRecalled i r u d => rw [State.markRecalled_unit, State.clearMarkOf_unit]; split <;> exact .inl rfl
  | completeDrain u =>
    rw [State.completeDrain_unit, State.completeDrain_holders]
    split
    · next h => exact .inr (.inr (.inr ⟨rfl, h.2.2⟩))
    · exact .inl rfl
  | endWalk a => exact .inl (by simp)
  | beginWalk a => exact .inl (by simp)
  | configureUnit u config => rw [State.unit_setUnit]; split <;> simp_all
  | openUnit u => rw [State.unit_setUnit]; split <;> simp_all
  | startDrain u opened => rw [State.unit_setUnit]; split <;> simp_all
  | resetLive =>
    rw [State.cleared_unit]
    dsimp only
    split
    · exact .inr (.inr (.inr ⟨rfl, (State.holders_eq_nil_iff _ _).mpr fun i a => by simp [State.hold]⟩))
    · exact .inl rfl
  | hardwareReset =>
    rw [State.hardwareReset_unit]
    exact .inr (.inr (.inr ⟨rfl, (State.holders_eq_nil_iff _ _).mpr fun i a => by simp [State.hold]⟩))
  | _ => exact .inl rfl

/-- A mark is set for a HELD record of its unit alone (R98). -/
theorem Primitive.unit_mark {s t : State} (change : Primitive s t) {v : UnitId} (marked : (t.unit v).mark ≠ none) :
    (s.unit v).mark ≠ none ∨ ∃ i r, s.record i = some r ∧ r.isHeldOn v = true := by
  cases change with
  | setMark u i r found holds =>
    rw [State.unit_setUnit] at marked
    split at marked
    · next h => exact .inr ⟨i, r, found, h ▸ holds⟩
    · exact .inl marked
  | grant own u i => rw [s.grant_mark own u i v] at marked; exact .inl marked
  | unitBottom u a => rw [State.unit_setUnit] at marked; split at marked <;> simp_all
  | upgrade u i =>
    rw [State.post_unit, State.setMode_unit, State.clearMark_unit] at marked
    split at marked
    · exact absurd rfl marked
    · exact .inl marked
  | clearMark u =>
    rw [State.clearMark_unit] at marked
    split at marked
    · exact absurd rfl marked
    · exact .inl marked
  | upgradeAlone u i =>
    rw [State.setMode_unit, State.clearMarkOf_unit] at marked
    split at marked
    · exact absurd rfl marked
    · exact .inl marked
  | downgrade u i => exact .inl (by simpa using marked)
  | remove i r =>
    rw [State.remove_unit, State.leavePlace_unit] at marked
    dsimp only at marked
    split at marked
    · exact absurd rfl marked
    · exact .inl marked
  | readSpent a n rest r =>
    rw [State.remove_unit, State.leavePlace_unit] at marked
    dsimp only at marked
    split at marked
    · exact absurd rfl marked
    · exact .inl marked
  | spend i r cause =>
    rw [State.markSpent_unit, State.leavePlace_unit] at marked
    dsimp only at marked
    split at marked
    · exact absurd rfl marked
    · exact .inl marked
  | markRecalled i r u d =>
    rw [State.markRecalled_unit, State.clearMarkOf_unit] at marked
    split at marked
    · exact absurd rfl marked
    · exact .inl marked
  | completeDrain u =>
    rw [State.completeDrain_unit] at marked
    split at marked <;> exact .inl marked
  | endWalk a => exact .inl (by simpa using marked)
  | beginWalk a => exact .inl (by simpa using marked)
  | configureUnit u config => rw [State.unit_setUnit] at marked; split at marked <;> simp_all
  | openUnit u => rw [State.unit_setUnit] at marked; split at marked <;> simp_all
  | startDrain u opened => rw [State.unit_setUnit] at marked; split at marked <;> simp_all
  | resetLive => rw [State.cleared_unit] at marked; exact absurd rfl marked
  | hardwareReset => rw [State.hardwareReset_unit] at marked; exact absurd rfl marked
  | _ => exact .inl marked

/-- A unit that is not OPEN gains no holder, and no HELD record. -/
theorem RecordChange.holding_of_closed {s : State} {j : SlotId} {r r' : Record} (change : RecordChange s j r r')
    {v : UnitId} (closed : (s.unit v).state ≠ .opened) :
    (r'.holding = some v → r.holding = some v) ∧ (r'.isHeldOn v = true → r.isHeldOn v = true) := by
  cases change with
  | same => exact ⟨id, id⟩
  | granted u x d c waits opened =>
    refine ⟨?_, fun holds => ?_⟩
    · rintro ⟨⟩; exact absurd opened closed
    · obtain ⟨_, _, ⟨⟩⟩ := (Record.isHeldOn_iff _ v).mp holds
      exact absurd opened closed
  | exclusive => exact ⟨id, id⟩
  | shared => exact ⟨id, id⟩
  | depth u d d' c holds => simp [Record.holding, Record.isHeldOn, holds]
  | renewed u d c requested holds => simp [Record.holding, Record.isHeldOn, holds]
  | spent => simp [Record.holding, Record.isHeldOn]
  | recalled u d c holds => simp [Record.holding, Record.isHeldOn, holds]
  | lowered c => cases standing : r.standing <;> simp [Record.holding, Record.isHeldOn, Standing.lowered, standing]

/-! ### Units that stay out of service -/

/-- From s to t, unit v stays out of service: it does not start to drain, it goes OFFLINE without a holder, and no holder,
no HELD record and no mark comes to it. -/
structure Shuts (v : UnitId) (s t : State) : Prop where
  closed : (t.unit v).state ≠ .opened
  draining : (t.unit v).state = .draining → (s.unit v).state = .draining
  offline : (t.unit v).state = .offline → (s.unit v).state = .offline ∨ t.holders v = []
  mark : (t.unit v).mark ≠ none → (s.unit v).mark ≠ none ∨ ∃ i r, s.record i = some r ∧ r.isHeldOn v = true
  holding : ∀ i, t.holding i = some v → s.holding i = some v
  held : ∀ i r, t.record i = some r → r.isHeldOn v = true → ∃ q, s.record i = some q ∧ q.isHeldOn v = true

theorem Shuts.refl {v : UnitId} {s : State} (closed : (s.unit v).state ≠ .opened) : Shuts v s s :=
  ⟨closed, id, .inl, .inl, fun _ => id, fun _ r found holds => ⟨r, found, holds⟩⟩

theorem Shuts.trans {v : UnitId} {s t w : State} (first : Shuts v s t) (second : Shuts v t w) : Shuts v s w := by
  refine ⟨second.closed, first.draining ∘ second.draining, fun off => ?_, fun marked => ?_,
    fun i => first.holding i ∘ second.holding i, fun i r found holds => ?_⟩
  · refine (second.offline off).elim (fun before => (first.offline before).imp_right fun empty => ?_) .inr
    have fewer := State.holders_sublist second.holding
    rwa [empty, List.sublist_nil] at fewer
  · refine (second.mark marked).elim first.mark ?_
    rintro ⟨i, r, found, holds⟩
    exact .inr ⟨i, first.held i r found holds⟩
  · obtain ⟨q, before, held⟩ := second.held i r found holds
    exact first.held i q before held

/-- A unit out of service stays so under every primitive change that does not open it. -/
theorem Primitive.shuts {s t : State} (change : Primitive s t) {v : UnitId} (closed : (s.unit v).state ≠ .opened)
    (stays : (t.unit v).state ≠ .opened) : Shuts v s t := by
  have state := change.unit_state v
  refine ⟨stays, fun off => ?_, fun off => ?_, change.unit_mark, fun i holds => ?_, fun i r found holds => ?_⟩
  · rcases state with same | opened | ⟨opened, _⟩ | ⟨gone, _⟩
    · exact same ▸ off
    · exact absurd opened stays
    · exact absurd opened closed
    · exact nomatch off.symm.trans gone
  · rcases state with same | opened | ⟨opened, _⟩ | ⟨_, empty⟩
    · exact .inl (same ▸ off)
    · exact absurd opened stays
    · exact absurd opened closed
    · exact .inr empty
  · obtain ⟨r', found, held⟩ := Option.bind_eq_some_iff.mp holds
    obtain ⟨r, before, rewritten⟩ := change.record_change found
    exact (State.holding_of_record before).trans ((rewritten.holding_of_closed closed).1 held)
  · obtain ⟨q, before, rewritten⟩ := change.record_change found
    exact ⟨q, before, (rewritten.holding_of_closed closed).2 holds⟩

theorem StillChain.shuts {s t : State} (chain : StillChain s t) {v : UnitId} (closed : (s.unit v).state ≠ .opened) :
    Shuts v s t := by
  induction chain with
  | refl => exact .refl closed
  | tail _ last ih =>
    exact ih.trans (last.change.shuts ih.closed (by rw [last.state]; exact ih.closed))

theorem State.passOn_shuts (s : State) (own : Option SlotId) (x : Target) {v : UnitId}
    (closed : (s.unit v).state ≠ .opened) : Shuts v s (s.passOn own x) := (s.passOn_still own x).shuts closed

theorem State.unitPasses_shuts (us : List UnitId) {s : State} {v : UnitId} (closed : (s.unit v).state ≠ .opened) :
    Shuts v s (s.unitPasses us) := by
  induction us generalizing s with
  | nil => exact .refl closed
  | cons u us ih =>
    have first := s.passOn_shuts none (.unit u) closed
    exact first.trans (ih first.closed)

theorem State.completeDrain_state_ne {s : State} {u v : UnitId} (closed : (s.unit v).state ≠ .opened) :
    ((s.completeDrain u).unit v).state ≠ .opened := by
  rw [State.completeDrain_unit]
  split
  · exact nofun
  · exact closed

theorem State.completeDrain_shuts (s : State) (u : UnitId) {v : UnitId} (closed : (s.unit v).state ≠ .opened) :
    Shuts v s (s.completeDrain u) :=
  (Primitive.completeDrain s u).shuts closed (State.completeDrain_state_ne closed)

theorem State.afterDeparture_shuts (s : State) (r : Record) {v : UnitId} (closed : (s.unit v).state ≠ .opened) :
    Shuts v s (s.afterDeparture r) := by
  have drained (u : UnitId) : Shuts v s ((s.unitPass none u).completeDrain u) := by
    have passed := s.passOn_shuts none (.unit u) closed
    exact passed.trans (State.completeDrain_shuts _ u passed.closed)
  unfold State.afterDeparture
  split
  · exact s.passOn_shuts none _ closed
  · exact drained _
  · exact drained _
  · exact .refl closed

theorem State.retire_shuts (s : State) (i : SlotId) {v : UnitId} (closed : (s.unit v).state ≠ .opened) :
    Shuts v s (s.retire i) := by
  unfold State.retire
  split
  · exact .refl closed
  · next r found =>
    have removed : Shuts v s (s.remove i r) := (Primitive.remove s i r found).shuts closed (by
      rw [State.remove_unit, State.leavePlace_unit]; exact closed)
    exact removed.trans (State.afterDeparture_shuts _ r removed.closed)

theorem State.spend_shuts (s : State) (i : SlotId) (cause : SpentCause)
    (fits : ∀ r, s.record i = some r → r.isSpent = false ∧ r.standing.claim.mayEndAs cause) {v : UnitId}
    (closed : (s.unit v).state ≠ .opened) : Shuts v s (s.spend i cause) := by
  unfold State.spend
  split
  · exact .refl closed
  · next r found =>
    split
    · next attached =>
      obtain ⟨unspent, admitted⟩ := fits r found
      have spent : Shuts v s (s.markSpent i r cause) :=
        (Primitive.spend s i r cause found attached unspent admitted).shuts closed (by
          rw [State.markSpent_unit, State.leavePlace_unit]; exact closed)
      exact spent.trans (State.afterDeparture_shuts _ r spent.closed)
    · exact s.retire_shuts i closed

/-! ### Acts -/

/-- Unit v is OPEN. -/
def State.isOpen (s : State) (v : UnitId) : Bool := (s.unit v).state == .opened

theorem State.isOpen_iff (s : State) (v : UnitId) : s.isOpen v = true ↔ (s.unit v).state = .opened := by
  simp [State.isOpen]

theorem State.isOpen_congr {s t : State} {v : UnitId} (same : (t.unit v).state = (s.unit v).state) :
    t.isOpen v = s.isOpen v := by
  rw [State.isOpen, same, State.isOpen]

theorem State.passOn_isOpen (s : State) (own : Option SlotId) (x : Target) (v : UnitId) :
    (s.passOn own x).isOpen v = s.isOpen v := State.isOpen_congr (State.passOn_unitState s own x v)

theorem State.completeDrain_isOpen (s : State) (u v : UnitId) : (s.completeDrain u).isOpen v = s.isOpen v := by
  rw [State.isOpen, State.completeDrain_unit]
  split
  · next h => rw [State.isOpen, h.2.1]; rfl
  · rfl

theorem State.remove_isOpen (s : State) (i : SlotId) (r : Record) (v : UnitId) : (s.remove i r).isOpen v = s.isOpen v :=
  State.isOpen_congr (by rw [State.remove_unit, State.leavePlace_unit])

theorem State.markSpent_isOpen (s : State) (i : SlotId) (r : Record) (cause : SpentCause) (v : UnitId) :
    (s.markSpent i r cause).isOpen v = s.isOpen v :=
  State.isOpen_congr (by rw [State.markSpent_unit, State.leavePlace_unit])

/-- No act closes a unit. -/
theorem Act.keeps_open {s t : State} (act : Act s t) {v : UnitId} (opened : s.isOpen v = true) : t.isOpen v = true := by
  cases act with
  | calm _ calm =>
    rw [State.isOpen_iff] at opened ⊢
    rcases calm.state v with same | ⟨draining, _⟩
    · exact same.trans opened
    · exact nomatch opened.symm.trans draining
  | attach => exact opened
  | clearance => exact opened
  | pass own x => rwa [State.passOn_isOpen]
  | retire i =>
    rwa [s.retire_same (·.isOpen v) (fun _ _ _ => State.remove_isOpen _ _ _ v) (fun _ _ _ => State.passOn_isOpen _ _ _ v)
      (fun _ _ => State.completeDrain_isOpen _ _ v)]
  | spend i cause =>
    rwa [s.spend_same (·.isOpen v) (fun _ _ _ => State.remove_isOpen _ _ _ v)
      (fun _ _ _ _ => State.markSpent_isOpen _ _ _ _ v) (fun _ _ _ => State.passOn_isOpen _ _ _ v)
      (fun _ _ => State.completeDrain_isOpen _ _ v)]
  | reopen u =>
    refine (State.passOn_isOpen _ none (.unit u) v).trans ?_
    rw [State.isOpen, State.unit_setUnit]
    split
    · rfl
    · exact opened
  | raise c =>
    rw [State.unitPasses_same (·.isOpen v) (fun _ _ _ => State.passOn_isOpen _ _ _ v)]
    exact opened
  | resume a =>
    rw [State.unitPasses_same (·.isOpen v) (fun _ _ _ => State.passOn_isOpen _ _ _ v)]
    exact opened
  | clear =>
    rw [State.isOpen_iff] at opened ⊢
    rw [State.cleared_unit]
    simp [opened]

/-- An act that leaves a unit out of service shuts it. -/
theorem Act.shuts {s t : State} (act : Act s t) {v : UnitId} (stays : (t.unit v).state ≠ .opened) : Shuts v s t := by
  have closed : (s.unit v).state ≠ .opened := fun opened =>
    stays ((t.isOpen_iff v).mp (act.keeps_open ((s.isOpen_iff v).mpr opened)))
  cases act with
  | calm change => exact change.shuts closed stays
  | attach a free quota => exact (Primitive.attach s a free quota).shuts closed stays
  | clearance a yes thawed clear => exact (Primitive.clearance s a yes thawed clear).shuts closed stays
  | pass own x => exact s.passOn_shuts own x closed
  | retire i => exact s.retire_shuts i closed
  | spend i cause fits => exact s.spend_shuts i cause fits closed
  | reopen u shut =>
    have opened : Shuts v s (s.setUnit u { s.unit u with state := .opened }) :=
      (Primitive.openUnit s u shut).shuts closed fun opened =>
        stays ((State.passOn_unitState _ none (.unit u) v).trans opened)
    exact opened.trans (State.passOn_shuts _ none (.unit u) opened.closed)
  | raise c thawed range rises =>
    have raised : Shuts v s { s with ceiling := c } := (Primitive.ceiling s c thawed range (.inl rises)).shuts closed closed
    exact raised.trans (State.unitPasses_shuts _ raised.closed)
  | resume a attached =>
    have resumed : Shuts v s (s.setAgent a { s.agent a with held := false }) :=
      (Primitive.hold s a false attached).shuts closed closed
    exact resumed.trans (State.unitPasses_shuts _ resumed.closed)
  | clear => exact (Primitive.resetLive s).shuts closed stays

/-! ### The law of one unit (R10, R161) -/

/-- What R10 and R161 say of one unit. -/
structure Serviced (s : State) (v : UnitId) : Prop where
  offline : (s.unit v).state = .offline → s.holders v = []
  queue : (s.unit v).state ≠ .opened → (s.unit v).queue = []
  mark : (s.unit v).state ≠ .opened → (s.unit v).mark = none
  held : (s.unit v).state ≠ .opened → ∀ i r, s.record i = some r → r.isHeldOn v = false

theorem UnitState.ne_opened_iff {x : UnitState} : x ≠ .opened ↔ x = .offline ∨ x = .draining := by
  cases x <;> simp

theorem serviceLaw_iff (s : State) : ServiceLaw s ↔ ∀ v, Serviced s v := by
  constructor
  · intro law v
    obtain ⟨offline, draining⟩ := law v
    have none_held (off : (s.unit v).state = .offline) (i : SlotId) (r : Record) (found : s.record i = some r) :
        r.isHeldOn v = false := by
      obtain ⟨empty, _⟩ := offline off
      by_contra holds
      have mem := (s.mem_holders v i).mpr ⟨r, found, Record.holding_of_isHeldOn (by simpa using holds)⟩
      rw [empty] at mem
      cases mem
    refine ⟨fun off => (offline off).1, fun closed => ?_, fun closed => ?_, fun closed => ?_⟩ <;>
      rcases UnitState.ne_opened_iff.mp closed with off | drains
    · exact (offline off).2.1
    · exact (draining drains).1
    · exact (offline off).2.2
    · exact (draining drains).2.1
    · exact none_held off
    · exact (draining drains).2.2
  · intro law v
    refine ⟨fun off => ?_, fun drains => ?_⟩
    · have closed : (s.unit v).state ≠ .opened := by rw [off]; exact nofun
      exact ⟨(law v).offline off, (law v).queue closed, (law v).mark closed⟩
    · have closed : (s.unit v).state ≠ .opened := by rw [drains]; exact nofun
      exact ⟨(law v).queue closed, (law v).mark closed, (law v).held closed⟩

/-- No change of a record starts a wait. -/
theorem RecordChange.wait {s : State} {j : SlotId} {r r' : Record} (change : RecordChange s j r r')
    {w : AgentId × Target} (waits : r'.wait = some w) : r.wait = some w := by
  cases change with
  | same => exact waits
  | exclusive => exact waits
  | shared => exact waits
  | lowered c => exact r.wait_lowered _ ▸ waits
  | granted => cases waits
  | depth => cases waits
  | renewed => cases waits
  | spent => cases waits
  | recalled => cases waits

theorem Primitive.wait {s t : State} (change : Primitive s t) {i : SlotId} {w : AgentId × Target}
    (waits : t.wait i = some w) : s.wait i = some w := by
  obtain ⟨r', found, waits⟩ := Option.bind_eq_some_iff.mp waits
  obtain ⟨r, before, rewritten⟩ := change.record_change found
  exact (State.wait_of_record before).trans (rewritten.wait waits)

theorem Chain.wait {s t : State} (chain : Chain s t) {i : SlotId} {w : AgentId × Target}
    (waits : t.wait i = some w) : s.wait i = some w := by
  induction chain with
  | refl => exact waits
  | tail _ last ih => exact ih (last.wait waits)

theorem Chain.keeps_queueLaw {s t : State} (chain : Chain s t) (law : QueueLaw s) : QueueLaw t :=
  chain.keeps (fun _ _ => Primitive.keeps_queueLaw) law

/-- The queue of a unit is empty exactly where nobody waits for it. -/
theorem QueueLaw.queue_eq_nil_iff {s : State} (law : QueueLaw s) (v : UnitId) :
    (s.unit v).queue = [] ↔ ∀ i a, s.wait i ≠ some (a, .unit v) := by
  have member (i : SlotId) : i ∈ (s.unit v).queue ↔ ∃ a, s.wait i = some (a, .unit v) := law.mem_queueAt (x := .unit v)
  simp only [List.eq_nil_iff_forall_not_mem, member, not_exists]

/-- A unit that is shut keeps its law. -/
theorem Serviced.of_shuts {s t : State} {v : UnitId} (law : Serviced s v) (queues : QueueLaw s) (chain : Chain s t)
    (shuts : Shuts v s t) (closed : (s.unit v).state ≠ .opened) : Serviced t v := by
  have noneHeld := law.held closed
  refine ⟨fun off => ?_, fun _ => ?_, fun _ => ?_, fun _ i r found => ?_⟩
  · refine (shuts.offline off).elim (fun before => ?_) id
    have fewer := State.holders_sublist shuts.holding
    rwa [law.offline before, List.sublist_nil] at fewer
  · refine ((chain.keeps_queueLaw queues).queue_eq_nil_iff v).mpr fun i a waits => ?_
    exact (queues.queue_eq_nil_iff v).mp (law.queue closed) i a (chain.wait waits)
  · by_contra marked
    rcases shuts.mark marked with before | ⟨i, r, found, holds⟩
    · exact before (law.mark closed)
    · exact nomatch (noneHeld i r found).symm.trans holds
  · by_contra holds
    obtain ⟨q, before, held⟩ := shuts.held i r found (by simpa using holds)
    exact nomatch (noneHeld i q before).symm.trans held

/-- A unit in service has no law of its own. -/
theorem Serviced.of_open {s : State} {v : UnitId} (opened : (s.unit v).state = .opened) : Serviced s v :=
  ⟨fun off => (nomatch off.symm.trans opened), fun closed => absurd opened closed, fun closed => absurd opened closed,
    fun closed => absurd opened closed⟩

theorem Act.keeps_serviced {s t : State} (act : Act s t) (queues : QueueLaw s) {v : UnitId} (law : Serviced s v) :
    Serviced t v := by
  by_cases opened : (t.unit v).state = .opened
  · exact .of_open opened
  · refine law.of_shuts queues act.chain (act.shuts opened) fun before => ?_
    exact opened ((t.isOpen_iff v).mp (act.keeps_open ((s.isOpen_iff v).mpr before)))

theorem Acts.keeps_serviced {s t : State} (acts : Acts s t) (queues : QueueLaw s) {v : UnitId} (law : Serviced s v) :
    Serviced t v := by
  have both := acts.keeps (P := fun p => QueueLaw p ∧ Serviced p v)
    (fun _ _ act before => ⟨act.chain.keeps_queueLaw before.1, act.keeps_serviced before.1 before.2⟩) ⟨queues, law⟩
  exact both.2

end Sys2Proof.Machine
end

section
/-! SUPPORT. The drain of a unit (spec/09 R161): it leaves no waiter, no mark and no HELD record on its unit; and the
statement that every step keeps the laws of holders and of service. -/

namespace Sys2Proof.Machine

/-! ### What operations keep -/

section Keeps

variable {P : State → Prop}

theorem State.afterDeparture_keeps (pass : ∀ s own x, P s → P (State.passOn s own x))
    (drain : ∀ s u, P s → P (State.completeDrain s u)) {s : State} (r : Record) (start : P s) :
    P (s.afterDeparture r) := by
  unfold State.afterDeparture
  split
  · exact pass _ none _ start
  · exact drain _ _ (pass _ none (.unit _) start)
  · exact drain _ _ (pass _ none (.unit _) start)
  · exact start

theorem State.retire_keeps (remove : ∀ s i r, P s → P (State.remove s i r))
    (pass : ∀ s own x, P s → P (State.passOn s own x)) (drain : ∀ s u, P s → P (State.completeDrain s u)) {s : State}
    (i : SlotId) (start : P s) : P (s.retire i) := by
  unfold State.retire
  split
  · exact start
  · exact State.afterDeparture_keeps pass drain _ (remove _ _ _ start)

theorem State.spend_keeps (remove : ∀ s i r, P s → P (State.remove s i r))
    (mark : ∀ s i r cause, P s → P (State.markSpent s i r cause)) (pass : ∀ s own x, P s → P (State.passOn s own x))
    (drain : ∀ s u, P s → P (State.completeDrain s u)) {s : State} (i : SlotId) (cause : SpentCause) (start : P s) :
    P (s.spend i cause) := by
  unfold State.spend
  split
  · exact start
  · split
    · exact State.afterDeparture_keeps pass drain _ (mark _ _ _ _ start)
    · exact State.retire_keeps remove pass drain i start

theorem State.withdraw_keeps {s : State} {i : SlotId} (start : P s) (spend : ∀ cause, P s → P (s.spend i cause)) :
    P (s.withdraw i) := by
  unfold State.withdraw
  split
  · exact spend _ start
  · exact start

theorem State.recall_keeps (spend : ∀ s i cause, P s → P (State.spend s i cause))
    (recalled : ∀ s i r u d, P s → P (State.markRecalled s i r u d)) (pass : ∀ s own x, P s → P (State.passOn s own x))
    {s : State} (i : SlotId) (start : P s) : P (s.recall i) := by
  unfold State.recall
  split
  · exact start
  · split
    · split
      · exact spend _ _ _ start
      · split
        · exact pass _ none (.unit _) (recalled _ _ _ _ _ start)
        · exact recalled _ _ _ _ _ start
    · exact start
    · exact start
    · exact start

end Keeps

/-- What one visit does to its own slot, and no other visit undoes, a fold has done to every slot that it visited. -/
theorem foldl_visits {α σ : Type} {I : σ → Prop} {K : σ → α → Prop} {f : σ → α → σ} (inv : ∀ s x, I s → I (f s x))
    (does : ∀ s x, I s → K (f s x) x) (keeps : ∀ s x y, I s → K s y → K (f s x) y) {xs : List α} {s : σ} (start : I s) :
    (∀ y, K s y → K (xs.foldl f s) y) ∧ ∀ y, y ∈ xs → K (xs.foldl f s) y := by
  induction xs generalizing s with
  | nil => exact ⟨fun _ => id, nofun⟩
  | cons x xs ih =>
    obtain ⟨kept, visited⟩ := ih (inv s x start)
    refine ⟨fun y before => kept y (keeps s x y start before), fun y mem => ?_⟩
    rcases List.mem_cons.mp mem with rfl | mem
    · exact kept y (does s y start)
    · exact visited y mem

/-! ### A unit that is being drained -/

/-- Unit u is out of service and has no mark. -/
structure Idle (u : UnitId) (s : State) : Prop where
  closed : (s.unit u).state ≠ .opened
  unmarked : (s.unit u).mark = none

theorem Idle.passOn {u : UnitId} {s : State} (idle : Idle u s) (own : Option SlotId) (x : Target) :
    Idle u (s.passOn own x) :=
  ⟨(s.passOn_shuts own x idle.closed).closed, (s.passOn_still own x).unmarked idle.unmarked⟩

theorem Idle.completeDrain {u : UnitId} {s : State} (idle : Idle u s) (v : UnitId) : Idle u (s.completeDrain v) := by
  refine ⟨State.completeDrain_state_ne idle.closed, ?_⟩
  rw [State.completeDrain_unit]
  split <;> exact idle.unmarked

theorem Idle.leavePlace {u : UnitId} {s t : State} (idle : Idle u s) {i : SlotId} {r : Record}
    (unit : t.unit u = (s.leavePlace i r).unit u) : Idle u t := by
  refine ⟨?_, ?_⟩ <;> rw [unit, State.leavePlace_unit]
  · exact idle.closed
  · dsimp only; split
    · rfl
    · exact idle.unmarked

theorem Idle.markRecalled {u : UnitId} {s : State} (idle : Idle u s) (i : SlotId) (r : Record) (v : UnitId) (d : Nat) :
    Idle u (s.markRecalled i r v d) := by
  refine ⟨?_, ?_⟩ <;> rw [State.markRecalled_unit, State.clearMarkOf_unit] <;> split
  · exact idle.closed
  · exact idle.closed
  · rfl
  · exact idle.unmarked

theorem Idle.spend {u : UnitId} {s : State} (idle : Idle u s) (i : SlotId) (cause : SpentCause) :
    Idle u (s.spend i cause) :=
  State.spend_keeps (fun _ _ _ h => h.leavePlace (State.remove_unit _ _ _ u))
    (fun _ _ _ _ h => h.leavePlace (State.markSpent_unit _ _ _ _ u)) (fun _ own x h => h.passOn own x)
    (fun _ v h => h.completeDrain v) i cause idle

theorem Idle.withdraw {u : UnitId} {s : State} (idle : Idle u s) (i : SlotId) : Idle u (s.withdraw i) :=
  State.withdraw_keeps idle fun cause h => h.spend i cause

theorem Idle.recall {u : UnitId} {s : State} (idle : Idle u s) (i : SlotId) : Idle u (s.recall i) :=
  State.recall_keeps (fun _ i cause h => h.spend i cause) (fun _ i r v d h => h.markRecalled i r v d)
    (fun _ own x h => h.passOn own x) i idle

/-- Acts that leave a unit out of service shut it. -/
theorem Acts.shuts {s t : State} (acts : Acts s t) {v : UnitId} (stays : (t.unit v).state ≠ .opened) : Shuts v s t := by
  induction acts with
  | refl => exact .refl stays
  | tail _ last ih =>
    have shut := last.shuts stays
    exact (ih fun opened => stays ((State.isOpen_iff _ v).mp (last.keeps_open ((State.isOpen_iff _ v).mpr opened)))).trans
      shut

theorem State.afterDeparture_chain_wait {s : State} {r : Record} {i : SlotId} {w : AgentId × Target}
    (waits : (s.afterDeparture r).wait i = some w) : s.wait i = some w := (s.afterDeparture_chain r).wait waits

/-- The record that is spent or retired no longer waits. -/
theorem State.spend_wait (s : State) (i : SlotId) (cause : SpentCause) : (s.spend i cause).wait i = none := by
  refine Option.eq_none_iff_forall_ne_some.mpr fun w waits => ?_
  cases found : s.record i with
  | none => simp [State.spend, State.wait, found] at waits
  | some r =>
    simp only [State.spend, State.retire, found] at waits
    split at waits <;> have before := State.afterDeparture_chain_wait waits
    · rw [State.wait, State.markSpent_record, if_pos rfl] at before
      cases before
    · rw [State.wait, State.remove_record, if_pos rfl] at before
      cases before

/-- A withdrawn record no longer waits (R161). -/
theorem State.withdraw_wait (s : State) (i : SlotId) : (s.withdraw i).wait i = none := by
  unfold State.withdraw
  split
  · exact s.spend_wait i _
  · next idle =>
    refine Option.eq_none_iff_forall_ne_some.mpr fun w waits => idle ?_
    obtain ⟨r, found, standing⟩ := Option.bind_eq_some_iff.mp waits
    rw [found, Option.any_some]
    exact (Record.waits_of_wait standing).1

/-- Where every waiter of a unit is withdrawn nobody waits for it. -/
theorem State.withdrawAll_queue {s : State} {u : UnitId} (queues : QueueLaw s) :
    ((s.withdrawAll (s.unit u).queue).unit u).queue = [] := by
  have chain := s.withdrawAll_chain (s.unit u).queue
  refine ((chain.keeps_queueLaw queues).queue_eq_nil_iff u).mpr fun i a waits => ?_
  have listed : i ∈ (s.unit u).queue := (queues.mem_queueAt (x := .unit u)).mpr ⟨a, chain.wait waits⟩
  obtain ⟨_, gone⟩ := foldl_visits (I := fun _ => True) (K := fun s i => State.wait s i = none)
    (f := fun s i => State.withdraw s i) (xs := (s.unit u).queue) (s := s) (fun _ _ => id)
    (fun s i _ => s.withdraw_wait i)
    (fun s i j _ before => by
      refine Option.eq_none_iff_forall_ne_some.mpr fun w waits => ?_
      exact nomatch before.symm.trans ((s.withdraw_chain i).wait waits)) trivial
  exact nomatch (gone i listed).symm.trans waits

/-- The record in slot i is not HELD on unit u. -/
def NotHeld (u : UnitId) (s : State) (i : SlotId) : Prop := ∀ r, s.record i = some r → r.isHeldOn u = false

theorem Shuts.notHeld {u : UnitId} {s t : State} (shut : Shuts u s t) {i : SlotId} (before : NotHeld u s i) :
    NotHeld u t i := by
  intro r found
  by_contra holds
  obtain ⟨q, stood, held⟩ := shut.held i r found (by simpa using holds)
  exact nomatch (before q stood).symm.trans held

/-- The record that is spent or retired on a unit out of service is not HELD on it. -/
theorem State.spend_notHeld {u : UnitId} {s : State} (closed : (s.unit u).state ≠ .opened) (i : SlotId)
    (cause : SpentCause) : NotHeld u (s.spend i cause) i := by
  cases found : s.record i with
  | none => simp [State.spend, NotHeld, found]
  | some r =>
    simp only [State.spend, State.retire, found]
    split
    · refine (State.afterDeparture_shuts _ r ?_).notHeld fun q here => ?_
      · rw [State.markSpent_unit, State.leavePlace_unit]; exact closed
      · rw [State.markSpent_record, if_pos rfl] at here
        cases here
        rfl
    · refine (State.afterDeparture_shuts _ r ?_).notHeld fun q here => ?_
      · rw [State.remove_unit, State.leavePlace_unit]; exact closed
      · rw [State.remove_record, if_pos rfl] at here
        cases here

/-- A recalled record is not HELD on a unit out of service (R158). -/
theorem State.recall_notHeld {u : UnitId} {s : State} (idle : Idle u s) (i : SlotId) : NotHeld u (s.recall i) i := by
  unfold State.recall
  split
  · next free => exact fun r found => nomatch free.symm.trans found
  · next r found =>
    split
    · next v d c holds =>
      have marked : NotHeld u (s.markRecalled i r v d) i := fun q here => by
        rw [State.markRecalled_record, if_pos rfl] at here
        cases here
        rfl
      split
      · exact State.spend_notHeld idle.closed i _
      · split
        · exact (State.passOn_shuts _ none (.unit v) (idle.markRecalled i r v d).closed).notHeld marked
        · exact marked
    all_goals
      next standing =>
        intro q here
        cases found.symm.trans here
        simp [Record.isHeldOn, standing]

/-- Where every HELD record of a unit out of service is recalled, none is HELD. -/
theorem State.recallAll_notHeld {u : UnitId} {s : State} (idle : Idle u s) (i : SlotId) :
    NotHeld u (s.recallAll (s.heldOn u)) i := by
  obtain ⟨kept, gone⟩ := foldl_visits (I := Idle u) (K := NotHeld u) (f := fun s i => State.recall s i)
    (xs := s.heldOn u) (s := s) (fun _ i h => h.recall i) (fun _ i h => State.recall_notHeld h i)
    (fun _ i j h before => ((State.recall_acts _ i).shuts (h.recall i).closed).notHeld before) idle
  by_cases listed : i ∈ s.heldOn u
  · exact gone i listed
  · refine kept i fun r found => ?_
    by_contra holds
    exact listed (by simpa [State.heldOn, allSlots, found] using holds)

theorem Idle.foldl {α : Type} {u : UnitId} {f : State → α → State} (each : ∀ s x, Idle u s → Idle u (f s x))
    (xs : List α) {s : State} (idle : Idle u s) : Idle u (xs.foldl f s) := by
  induction xs generalizing s with
  | nil => exact idle
  | cons x xs ih => exact ih (each s x idle)

/-- Steps 2 to 5 of a drain: the waiters are withdrawn, then the HELD records recalled, then the drain may complete
(R161). -/
def State.emptied (s : State) (u : UnitId) (waiters : List SlotId) : State :=
  ((s.withdrawAll waiters).recallAll ((s.withdrawAll waiters).heldOn u)).completeDrain u

theorem State.drain_eq (s : State) (u : UnitId) : ∃ ans, s.drain u =
    ((s.setUnit u { s.unit u with state := .draining, mark := none }).emptied u (s.unit u).queue).answerControl ans :=
  ⟨_, rfl⟩

theorem State.emptied_acts (s : State) (u : UnitId) (waiters : List SlotId) : Acts s (s.emptied u waiters) :=
  ((s.withdrawAll_acts _).then (State.recallAll_acts _ _)).then (State.completeDrain_acts _ u)

theorem Idle.emptied {s : State} {u : UnitId} (idle : Idle u s) (waiters : List SlotId) : Idle u (s.emptied u waiters) :=
  Idle.completeDrain ((idle.foldl (fun _ i h => h.withdraw i) _).foldl (fun _ i h => h.recall i) _) u

/-- The drain leaves no waiter, no mark and no HELD record on its unit, and no holder where it completes. -/
theorem State.emptied_serviced {s : State} {u : UnitId} (queues : QueueLaw s) (idle : Idle u s)
    (draining : (s.unit u).state = .draining) : Serviced (s.emptied u (s.unit u).queue) u := by
  have idleW : Idle u (s.withdrawAll (s.unit u).queue) := idle.foldl (fun _ i h => h.withdraw i) _
  have idleT := idle.emptied (s.unit u).queue
  have lawW := (s.withdrawAll_chain (s.unit u).queue).keeps_queueLaw queues
  have completed : Acts ((s.withdrawAll (s.unit u).queue).recallAll ((s.withdrawAll (s.unit u).queue).heldOn u))
      (s.emptied u (s.unit u).queue) := State.completeDrain_acts _ u
  have chain := (State.recallAll_chain (s.withdrawAll (s.unit u).queue) _).then completed.chain
  refine ⟨fun off => ?_, fun _ => ?_, fun _ => idleT.unmarked, fun _ i => ?_⟩
  · refine (((s.emptied_acts u _).shuts idleT.closed).offline off).resolve_left fun before => ?_
    exact nomatch draining.symm.trans before
  · refine ((chain.keeps_queueLaw lawW).queue_eq_nil_iff u).mpr fun i a waits => ?_
    exact (lawW.queue_eq_nil_iff u).mp (State.withdrawAll_queue queues) i a (chain.wait waits)
  · exact (completed.shuts idleT.closed).notHeld (State.recallAll_notHeld idleW i)

theorem State.startDrain_idle (s : State) (u : UnitId) :
    Idle u (s.setUnit u { s.unit u with state := .draining, mark := none }) := by
  constructor <;> rw [State.unit_setUnit_self]
  exact nofun

theorem Serviced.answerControl {s : State} {v : UnitId} (law : Serviced s v) (ans : Answer) :
    Serviced (s.answerControl ans) v :=
  ⟨law.offline, law.queue, law.mark, law.held⟩

/-- DRAIN_UNIT keeps the law of every unit. -/
theorem State.drain_keeps_serviced {s : State} {u : UnitId} (queues : QueueLaw s) (opened : (s.unit u).state = .opened)
    {v : UnitId} (law : Serviced s v) : Serviced (s.drain u) v := by
  have started : Primitive s (s.setUnit u { s.unit u with state := .draining, mark := none }) := .startDrain s u opened
  have queuesP := started.keeps_queueLaw queues
  by_cases same : v = u
  · subst same
    obtain ⟨ans, drained⟩ := s.drain_eq v
    have listed : (s.unit v).queue = ((s.setUnit v { s.unit v with state := .draining, mark := none }).unit v).queue := by
      rw [State.unit_setUnit_self]
    rw [drained, listed]
    exact (State.emptied_serviced queuesP (s.startDrain_idle v) (by rw [State.unit_setUnit_self])).answerControl ans
  · refine (s.drain_acts u).keeps_serviced queuesP ⟨?_, ?_, ?_, ?_⟩ <;> rw [State.unit_setUnit_of_ne _ _ same]
    · exact law.offline
    · exact law.queue
    · exact law.mark
    · exact law.held

/-! ### The statement -/

theorem serviceLaw_of_empty {s : State} (queue : ∀ v, (s.unit v).queue = []) (mark : ∀ v, (s.unit v).mark = none)
    (free : ∀ i, s.record i = none) : ServiceLaw s :=
  (serviceLaw_iff s).mpr fun v => ⟨fun _ => (State.holders_eq_nil_iff s v).mpr fun i a => by simp [State.hold, free],
    fun _ => queue v, fun _ => mark v, fun _ i r found => nomatch (free i).symm.trans found⟩

theorem serviceLaw_hardwareReset (s : State) : ServiceLaw s.hardwareReset := by
  refine serviceLaw_of_empty ?_ ?_ s.hardwareReset_record <;> intro v <;> rw [State.hardwareReset_unit]

theorem serviceLaw_afterPowerOn (straps : AgentId) : ServiceLaw (State.afterPowerOn straps) := by
  refine serviceLaw_of_empty ?_ ?_ (State.afterPowerOn_record straps) <;> intro v <;>
    rw [State.afterPowerOn_unit]

/-- A request for a unit is taken where the unit is OPEN (R46). -/
theorem Allocation.keeps_serviced {s t : State} (new : Allocation s t) {v : UnitId} (law : Serviced s v) :
    Serviced t v := by
  obtain ⟨i, a, mode, x, requested, waitLimit, free, _, _, _, _, onUnit, _⟩ := new
  have record {j : SlotId} {r : Record} (found : (s.allocate i a mode x requested waitLimit).record j = some r) :
      s.record j = some r ∨ r.holding = none ∧ r.isHeldOn v = false := by
    rw [State.allocate_record] at found
    split at found
    · cases found; exact .inr ⟨rfl, rfl⟩
    · exact .inl found
  by_cases opened : (s.unit v).state = .opened
  · refine .of_open ?_
    rw [State.allocate_unit]
    split <;> exact opened
  · have other : x ≠ .unit v := by
      rintro rfl
      exact opened (onUnit v rfl).1
    have unit : (s.allocate i a mode x requested waitLimit).unit v = s.unit v := by rw [State.allocate_unit, if_neg other]
    refine ⟨fun off => ?_, ?_, ?_, fun closed j r found => ?_⟩
    · refine (State.holders_eq_nil_iff _ v).mpr fun j b holds => ?_
      obtain ⟨r, found, owner, held⟩ := State.hold_eq_some.mp holds
      rcases record found with before | ⟨none, _⟩
      · exact (State.holders_eq_nil_iff s v).mp (law.offline (unit ▸ off)) j b
          (State.hold_eq_some.mpr ⟨r, before, owner, held⟩)
      · exact nomatch none.symm.trans held
    · rw [unit]; exact law.queue
    · rw [unit]; exact law.mark
    · exact (record found).elim (law.held opened j r) fun h => h.2

theorem Run.keeps {P : State → Prop} (change : ∀ s t, Primitive s t → P s → P t)
    (allocate : ∀ s t, Allocation s t → P s → P t) {s t : State} (run : Run s t) (start : P s) : P t := by
  cases run with
  | acts acts => exact acts.chain.keeps change start
  | drain before u opened => exact (before.chain.then (State.drain_chain _ u opened)).keeps change start
  | @request aid code p t here i mode x requested waitLimit new lowest after =>
    subst here
    have begun := allocate _ _ new ((s.taken_acts aid code).chain.keeps change start)
    exact ((State.passOn_chain _ _ _).then after.chain).keeps change begun

theorem Run.keeps_queueLaw {s t : State} (run : Run s t) (law : QueueLaw s) : QueueLaw t :=
  run.keeps (fun _ _ => Primitive.keeps_queueLaw) (fun _ _ => Allocation.keeps_queueLaw) law

theorem queueLaw_afterPowerOn (straps : AgentId) : QueueLaw (State.afterPowerOn straps) :=
  queueLaw_of_empty (State.afterPowerOn_record straps)
    (fun u => congrArg UnitRecord.queue (State.afterPowerOn_unit straps u))
    fun p => congrArg PoolRecord.queue (State.afterPowerOn_pool straps p)

theorem Run.keeps_serviceLaw {s t : State} (run : Run s t) (queues : QueueLaw s) (law : ServiceLaw s) : ServiceLaw t := by
  rw [serviceLaw_iff] at law ⊢
  intro v
  cases run with
  | acts acts => exact acts.keeps_serviced queues (law v)
  | drain before u opened =>
    exact State.drain_keeps_serviced (before.chain.keeps_queueLaw queues) opened (before.keeps_serviced queues (law v))
  | @request aid code p t here i mode x requested waitLimit new lowest after =>
    subst here
    have taken := s.taken_acts aid code
    have queuesN := new.keeps_queueLaw (taken.chain.keeps_queueLaw queues)
    have acts := (Act.pass _ _ _).acts.then after
    exact acts.keeps_serviced queuesN (new.keeps_serviced (taken.keeps_serviced queues (law v)))

/-- What every run keeps, and the two resets and POWER_ON establish, a step of the queue keeps. -/
theorem step_keeps_of_run {P : State → Prop} (run : ∀ s t, Run s t → P s → P t) (reset : ∀ s, P s → P s.hardwareReset)
    (release : ∀ s, P s → P { s.quiet with inReset := false })
    (powerOn : ∀ straps s, P s → P { State.afterPowerOn straps with inReset := s.inReset, pending := s.pending })
    (queue : ∀ s q, P s → P { s with pending := q }) {s t : State} (start : P s) (h : step s = .next t) : P t := by
  unfold step at h
  split at h
  · cases h; exact start
  · next c rest _ =>
    have begun := queue s rest start
    by_cases isReset : c = .hardwareReset
    · subst isReset; cases h; exact reset _ begun
    by_cases isRelease : c = .hardwareResetRelease
    · subst isRelease; cases h; exact release _ begun
    by_cases powered : ∃ x, c = .powerOn x
    · obtain ⟨x, rfl⟩ := powered; cases h; exact powerOn x _ begun
    · obtain ⟨t', h', steps⟩ := exec_runs isReset isRelease (fun x same => powered ⟨x, same⟩) { s with pending := rest }
      cases h.symm.trans h'
      exact run _ _ steps begun

/-- Settles O55: the law of holders by primitive changes; the law of service by acts, and by the drain as a whole. -/
theorem holdersAndServiceKept : Obligations.HoldersAndServiceKept := by
  refine ⟨step_keeps_holderLaw, fun s t law queues run => ?_⟩
  have kept := step_keeps_of_run (P := fun p => QueueLaw p ∧ ServiceLaw p)
    (fun p q run before => ⟨run.keeps_queueLaw before.1, run.keeps_serviceLaw before.1 before.2⟩)
    (fun p before => ⟨(Primitive.hardwareReset p).keeps_queueLaw before.1, serviceLaw_hardwareReset p⟩)
    (fun p before => before) (fun straps p _ => ⟨queueLaw_afterPowerOn straps, serviceLaw_afterPowerOn straps⟩)
    (fun p q before => before) ⟨queues, law⟩ run
  exact kept.2

end Sys2Proof.Machine
end

section
/-! SUPPORT. One agent's holds and waits on one unit (spec/03 R48), and the service of the waiters of a free unit (spec/04
R74): both kept by every step. -/

namespace Sys2Proof.Machine

/-! ### The laws, read through holds and waits -/

/-- An agent holds a unit once, and does not wait for a unit that it holds. -/
structure OneHold (s : State) : Prop where
  once : ∀ i j w, s.hold i = some w → s.hold j = some w → i = j
  apart : ∀ i j a u, s.hold i = some (a, u) → s.wait j ≠ some (a, .unit u)

theorem oneHoldLaw_iff (s : State) : OneHoldLaw s ↔ OneHold s := by
  refine ⟨fun ⟨once, apart⟩ => ⟨fun i j ⟨a, u⟩ hi hj => ?_, fun i j a u hi hj => ?_⟩,
    fun ⟨once, apart⟩ => ⟨fun i j r q u hr hq same hi hj => ?_, fun i j r q u d c hr hq same hi hj => ?_⟩⟩
  · obtain ⟨r, foundR, ownerR, holdsR⟩ := State.hold_eq_some.mp hi
    obtain ⟨q, foundQ, ownerQ, holdsQ⟩ := State.hold_eq_some.mp hj
    exact once i j r q u foundR foundQ (ownerR.trans ownerQ.symm) holdsR holdsQ
  · obtain ⟨r, foundR, ownerR, holdsR⟩ := State.hold_eq_some.mp hi
    obtain ⟨q, foundQ, ownerQ, d, c, waitsQ⟩ := State.wait_eq_some.mp hj
    exact apart i j r q u d c foundR foundQ (ownerR.trans ownerQ.symm) holdsR waitsQ
  · exact once i j (r.agent, u) (State.hold_eq_some.mpr ⟨r, hr, rfl, hi⟩) (State.hold_eq_some.mpr ⟨q, hq, same.symm, hj⟩)
  · exact apart i j r.agent u (State.hold_eq_some.mpr ⟨r, hr, rfl, hi⟩)
      (State.wait_eq_some.mpr ⟨q, hq, same.symm, d, c, hj⟩)

/-- Unit v is not OPEN, or has a holder, or has no waiter of its own that may be granted it. -/
def ServedAt (s : State) (v : UnitId) : Prop :=
  (s.unit v).state = .opened → s.holders v = [] → ∀ i a, s.wait i = some (a, .unit v) → s.mayBeGranted a v = false

theorem State.eligible_of_wait {s : State} {i : SlotId} {a : AgentId} {x : Target} (waits : s.wait i = some (a, x))
    (u : UnitId) : s.eligible i u = s.mayBeGranted a u := by
  obtain ⟨r, found, owner, d, c, standing⟩ := State.wait_eq_some.mp waits
  simp [State.eligible, found, Record.isWaiting, standing, owner]

theorem servedLaw_iff {s : State} (queues : QueueLaw s) : ServedLaw s ↔ ∀ v, ServedAt s v := by
  have member (v : UnitId) (i : SlotId) : i ∈ (s.unit v).queue ↔ ∃ a, s.wait i = some (a, .unit v) :=
    queues.mem_queueAt (x := .unit v)
  refine forall_congr' fun v => forall_congr' fun _ => forall_congr' fun _ => forall_congr' fun i => ?_
  rw [member]
  refine ⟨fun served a waits => ?_, fun served ⟨a, waits⟩ => ?_⟩
  · exact State.eligible_of_wait waits v ▸ served ⟨a, waits⟩
  · exact (State.eligible_of_wait waits v).trans (served a waits)

/-- Fewer holds and fewer waits. -/
theorem OneHold.of_fewer {s t : State} (law : OneHold s) (hold : ∀ i w, t.hold i = some w → s.hold i = some w)
    (wait : ∀ i w, t.wait i = some w → s.wait i = some w) : OneHold t :=
  ⟨fun i j w hi hj => law.once i j w (hold i w hi) (hold j w hj),
    fun i j a u hi hj => law.apart i j a u (hold i _ hi) (wait j _ hj)⟩

theorem OneHold.congr {s t : State} (law : OneHold s) (record : ∀ i, t.record i = s.record i) : OneHold t :=
  law.of_fewer (fun i _ h => State.hold_congr (record i) ▸ h) fun i _ h => State.wait_congr (record i) ▸ h

/-- A unit stays served where it is not opened, loses no holder and gains no waiter, and no waiter of its own becomes
eligible. -/
theorem ServedAt.of_change {s t : State} {v : UnitId} (law : ServedAt s v)
    (opened : (t.unit v).state = .opened → (s.unit v).state = .opened)
    (hold : ∀ i a, s.hold i = some (a, v) → t.hold i = some (a, v))
    (wait : ∀ i a, t.wait i = some (a, .unit v) → s.wait i = some (a, .unit v))
    (permits : ∀ i a, t.wait i = some (a, .unit v) → t.mayBeGranted a v = true → s.mayBeGranted a v = true) :
    ServedAt t v := by
  intro open' free i a waits
  have before := law (opened open')
    ((State.holders_eq_nil_iff s v).mpr fun j b held => (State.holders_eq_nil_iff t v).mp free j b (hold j b held)) i a
    (wait i a waits)
  by_contra may
  exact nomatch before.symm.trans (permits i a waits (by simpa using may))

/-! ### What a grant pass keeps -/

/-- From s to t waits may have become holds, and nothing else that eligibility reads has changed. -/
structure Grants (s t : State) : Prop where
  hold : ∀ i w, s.hold i = some w → t.hold i = some w
  wait : ∀ i w, t.wait i = some w → s.wait i = some w
  state : ∀ v, (t.unit v).state = (s.unit v).state
  permits : ∀ a u, t.mayBeGranted a u = s.mayBeGranted a u

theorem GrantedOrSame.hold {s t : State} {j : SlotId} (granted : GrantedOrSame s t j) {w : AgentId × UnitId}
    (holds : s.hold j = some w) : t.hold j = some w := by
  rcases granted with same | ⟨r, u, x, d, c, found, standing, _⟩
  · exact (State.hold_congr same).trans holds
  · simp [State.hold, found, Record.hold, Record.holding, standing] at holds

theorem GrantedOrSame.wait {s t : State} {j : SlotId} (granted : GrantedOrSame s t j) {w : AgentId × Target}
    (waits : t.wait j = some w) : s.wait j = some w := by
  rcases granted with same | ⟨r, u, x, d, c, _, _, _, after⟩
  · exact (State.wait_congr same).symm.trans waits
  · simp [State.wait, after, Record.wait] at waits

theorem SamePermits.mayBeGranted {s t : State} (same : SamePermits s t) (a : AgentId) (u : UnitId) :
    t.mayBeGranted a u = s.mayBeGranted a u :=
  State.mayBeGranted_congr (same.agent a) same.ceiling same.supervisor u

theorem Grants.refl (s : State) : Grants s s := ⟨fun _ _ => id, fun _ _ => id, fun _ => rfl, fun _ _ => rfl⟩

theorem State.grant_grants (s : State) (own : Option SlotId) (u : UnitId) (i : SlotId) (eligible : s.eligible i u = true) :
    Grants s (s.grant own u i) :=
  ⟨fun j _ => (s.grant_grantedOrSame own u i eligible j).hold, fun j _ => (s.grant_grantedOrSame own u i eligible j).wait,
    fun v => s.grant_state own u i v, (s.grant_permits own u i).mayBeGranted⟩

theorem stageBWalk_grants (own : Option SlotId) (u : UnitId) (is : List SlotId) (s : State) (last : Option AgentId) :
    Grants s (stageBWalk own u is s last).1 :=
  ⟨fun j _ => (stageBWalk_grantedOrSame own u j is s last).2.hold,
    fun j _ => (stageBWalk_grantedOrSame own u j is s last).2.wait, stageBWalk_unit own u is s last,
    (stageBWalk_grantedOrSame own u 0 is s last).1.mayBeGranted⟩

theorem State.stageC_state (s : State) (own : Option SlotId) (u v : UnitId) :
    ((s.stageC own u).unit v).state = (s.unit v).state :=
  s.stageC_same (fun s => (s.unit v).state) (fun s own u i => s.grant_state own u i v) (fun _ _ _ => rfl) own u

theorem State.stageC_grants (s : State) (own : Option SlotId) (u : UnitId) : Grants s (s.stageC own u) :=
  ⟨fun j _ => (s.stageC_grantedOrSame own u j).2.hold, fun j _ => (s.stageC_grantedOrSame own u j).2.wait,
    s.stageC_state own u, (s.stageC_grantedOrSame own u 0).1.mayBeGranted⟩

theorem State.passOn_mayBeGranted (s : State) (own : Option SlotId) (x : Target) (a : AgentId) (u : UnitId) :
    (s.passOn own x).mayBeGranted a u = s.mayBeGranted a u :=
  State.mayBeGranted_congr (by simp) (by simp) (by simp) u

theorem State.unitPass_grants (s : State) (own : Option SlotId) (u : UnitId) : Grants s (s.unitPass own u) := by
  refine ⟨fun j w holds => ?_, fun j w waits => (s.passOn_chain own (.unit u)).wait waits,
    s.passOn_unitState own (.unit u), s.passOn_mayBeGranted own (.unit u)⟩
  rcases s.unitPass_record own u j with granted | ⟨r, found, _, after⟩
  · exact granted.hold holds
  · rw [State.hold, found] at holds
    rw [State.hold, after]
    exact holds

theorem Grants.servedAt {s t : State} (grants : Grants s t) {v : UnitId} (law : ServedAt s v) : ServedAt t v :=
  law.of_change (fun opened => grants.state v ▸ opened) (fun i _ => grants.hold i _) (fun i _ => grants.wait i _)
    fun _ a _ may => grants.permits a v ▸ may

/-! ### Grants keep one hold of an agent on a unit -/

/-- A granted waiter's agent gains one hold, on a unit that it neither held nor waited for in another slot. -/
theorem OneHold.grant {s : State} (law : OneHold s) (own : Option SlotId) {u : UnitId} {i : SlotId} {a : AgentId}
    {x : Target} (waits : s.wait i = some (a, x)) (free : ∀ j, s.hold j ≠ some (a, u))
    (alone : ∀ j, j ≠ i → s.wait j ≠ some (a, .unit u)) : OneHold (s.grant own u i) := by
  obtain ⟨r, found, owner, d, c, standing⟩ := State.wait_eq_some.mp waits
  have record := s.grant_record own u i r x d c found standing
  have hold (j : SlotId) : (s.grant own u i).hold j = if j = i then some (a, u) else s.hold j := by
    rw [State.hold, record]
    split
    · simp [Record.hold, Record.holding, owner]
    · rfl
  have wait (j : SlotId) : (s.grant own u i).wait j = if j = i then none else s.wait j := by
    rw [State.wait, record]
    split <;> rfl
  refine ⟨fun j k w hj hk => ?_, fun j k b v hj hk => ?_⟩
  · rw [hold] at hj hk
    split at hj <;> split at hk
    · next hj' hk' => rw [hj', hk']
    · cases hj; exact absurd hk (free k)
    · cases hk; exact absurd hj (free j)
    · exact law.once j k w hj hk
  · rw [hold] at hj
    rw [wait] at hk
    split at hk
    · cases hk
    · next other =>
      split at hj
      · cases hj; exact alone k other hk
      · exact law.apart j k b v hj hk

theorem QueueLaw.one_wait {s : State} (law : QueueLaw s) {i j : SlotId} {w : AgentId × Target}
    (hi : s.wait i = some w) (hj : s.wait j = some w) : i = j := by
  obtain ⟨_, _, one⟩ := (queueOf_iff s w.2 _).mp ((queueLaw_iff s).mp law w.2)
  exact one i j w.1 hi hj

theorem stageBWalk_oneHold (own : Option SlotId) (u : UnitId) (is : List SlotId) (s : State) (last : Option AgentId)
    (law : OneHold s) (one : ∀ i j w, s.wait i = some w → s.wait j = some w → i = j)
    (listed : ∀ i, i ∈ is → ∀ w, s.wait i = some w → w.2 = .unit u) : OneHold (stageBWalk own u is s last).1 := by
  induction is generalizing s last with
  | nil => exact law
  | cons i is ih =>
    have rest : ∀ j, j ∈ is → ∀ w, s.wait j = some w → w.2 = .unit u := fun j mem => listed j (.tail i mem)
    unfold stageBWalk
    split
    · next eligible =>
      split
      · obtain ⟨r, x, d, c, found, standing, _⟩ := (s.eligible_iff i u).mp eligible
        have grants := s.grant_grants own u i eligible
        have waits : s.wait i = some (r.agent, x) := State.wait_eq_some.mpr ⟨r, found, rfl, d, c, standing⟩
        obtain rfl : x = .unit u := listed i (.head is) _ waits
        refine ih _ _ (law.grant own waits (fun j holds => law.apart j i _ u holds waits) fun j other also => ?_)
          (fun j k w hj hk => one j k w (grants.wait j w hj) (grants.wait k w hk))
          fun j mem w hw => rest j mem w (grants.wait j w hw)
        exact other (one j i _ also waits)
      · exact law
    · exact ih s last law one rest

/-- Where stage B leaves a unit without a holder, none of its ranked waiters was eligible: it would fit. -/
theorem stageBWalk_ineligible (own : Option SlotId) (u : UnitId) (is : List SlotId) (s : State) (last : Option AgentId)
    (free : ((stageBWalk own u is s last).1).holders u = []) : ∀ i, i ∈ is → s.eligible i u = false := by
  induction is generalizing s last with
  | nil => exact nofun
  | cons i is ih =>
    have grants := stageBWalk_grants own u (i :: is) s last
    unfold stageBWalk at free grants
    have freeBefore : s.holders u = [] := (State.holders_eq_nil_iff s u).mpr fun j a holds =>
      (State.holders_eq_nil_iff _ u).mp free j a (grants.hold j _ holds)
    have ineligible : ¬ s.eligible i u = true := fun eligible => by
      obtain ⟨r, x, d, c, found, standing, _⟩ := (s.eligible_iff i u).mp eligible
      have fits : s.fits i u = true := by rw [State.fits_of_record found]; simp [State.compatible, freeBefore]
      rw [if_pos eligible, if_pos fits] at free
      have granted : (s.grant own u i).hold i = some (r.agent, u) := by
        rw [State.hold, s.grant_record own u i r x d c found standing, if_pos rfl]
        rfl
      exact (State.holders_eq_nil_iff _ u).mp free i r.agent ((stageBWalk_grants own u is _ _).hold i _ granted)
    rw [if_neg ineligible] at free
    intro j mem
    rcases List.mem_cons.mp mem with rfl | mem
    · simpa using ineligible
    · exact ih s last free j mem

theorem State.stageB_record (s : State) (own : Option SlotId) (u : UnitId) (j : SlotId) :
    (s.stageB own u).record j =
      (stageBWalk own u (s.rank (s.unit u).config.order (s.unit u).bottom (s.unit u).queue) s none).1.record j := by
  unfold State.stageB
  dsimp only
  split
  · next walked => rw [walked]
  · next walked => rw [walked]; split <;> rfl

/-- Stage C leaves every record as it is, or makes one grant to an eligible waiter. -/
theorem State.stageC_record (s : State) (own : Option SlotId) (u : UnitId) :
    (∀ j, (s.stageC own u).record j = s.record j) ∨
      ∃ i, s.eligible i u = true ∧ ∀ j, (s.stageC own u).record j = (s.grant own u i).record j := by
  unfold State.stageC
  split
  · exact .inl fun _ => rfl
  · dsimp only
    split
    · exact .inl fun _ => rfl
    · next i first =>
      have eligible := List.find?_some first
      refine .inr ⟨i, eligible, fun j => ?_⟩
      split
      · rfl
      · split <;> rfl

/-- Stage C on a free unit that has no eligible waiter of its own. -/
theorem State.stageC_oneHold {s : State} (own : Option SlotId) {u : UnitId} (law : OneHold s)
    (opened : (s.unit u).state = .opened) (free : s.holders u = []) (served : ServedAt s u) :
    OneHold (s.stageC own u) := by
  rcases s.stageC_record own u with same | ⟨i, eligible, record⟩
  · exact law.congr same
  · obtain ⟨r, x, d, c, found, standing, may⟩ := (s.eligible_iff i u).mp eligible
    refine OneHold.congr (law.grant own (State.wait_eq_some.mpr ⟨r, found, rfl, d, c, standing⟩)
      (fun j => (State.holders_eq_nil_iff s u).mp free j r.agent) fun j _ waits => ?_) record
    exact nomatch (served opened free j r.agent waits).symm.trans may

/-- Every waiter of a queue is ranked. -/
theorem State.mem_rank {s : State} {order : OrderMode} {bottom : AgentId} {queue : List SlotId} {i : SlotId}
    {w : AgentId × Target} (waits : s.wait i = some w) (mem : i ∈ queue) : i ∈ s.rank order bottom queue := by
  cases order with
  | arrival => exact mem
  | ring => exact State.mem_rank_ring.mpr ⟨mem, w.1, State.owner_of_wait waits⟩

theorem State.mem_of_rank {s : State} {order : OrderMode} {bottom : AgentId} {queue : List SlotId} {i : SlotId}
    (mem : i ∈ s.rank order bottom queue) : i ∈ queue := by
  cases order with
  | arrival => exact mem
  | ring => exact (State.mem_rank_ring.mp mem).1

/-- Stage B on a unit without a pending upgrade. -/
theorem State.stageB_oneHold {s : State} (own : Option SlotId) (u : UnitId) (queues : QueueLaw s) (law : OneHold s) :
    OneHold (s.stageB own u) := by
  refine (stageBWalk_oneHold own u _ s none law (fun i j w => queues.one_wait) fun i mem w waits => ?_).congr
    (s.stageB_record own u)
  obtain ⟨a, own⟩ := (queues.mem_queueAt (x := .unit u)).mp (State.mem_of_rank mem)
  cases waits.symm.trans own
  rfl

theorem State.holders_congr_record {s t : State} (record : ∀ i, t.record i = s.record i) (u : UnitId) :
    t.holders u = s.holders u :=
  State.holders_congr fun i => by rw [State.holding_congr (record i)]

/-- Stage B leaves its unit served. -/
theorem State.stageB_servedAt {s : State} (own : Option SlotId) (u : UnitId) (queues : QueueLaw s) :
    ServedAt (s.stageB own u) u := by
  intro _ free i a waits
  have walked := stageBWalk_grants own u (s.rank (s.unit u).config.order (s.unit u).bottom (s.unit u).queue) s none
  rw [State.holders_congr_record (s.stageB_record own u)] at free
  have waited : s.wait i = some (a, .unit u) :=
    walked.wait i _ ((State.wait_congr (s.stageB_record own u i)).symm.trans waits)
  have mem : i ∈ (s.unit u).queue := (queues.mem_queueAt (x := .unit u)).mpr ⟨a, waited⟩
  have ineligible := stageBWalk_ineligible own u _ s none free i (State.mem_rank waited mem)
  rw [(s.stageB_grantedOrSame own u 0).1.mayBeGranted, ← State.eligible_of_wait waited, ineligible]

/-! ### The passes -/

/-- What the passes lean on. -/
structure Sound (s : State) : Prop where
  queues : QueueLaw s
  marks : MarkLaw s
  bands : BandLaw s
  sessions : SessionLaw s

/-- An agent holds a unit once, and every unit but those that are to be passed is served. -/
structure SettledBut (us : List UnitId) (s : State) : Prop where
  one : OneHold s
  served : ∀ v, v ∉ us → ServedAt s v

theorem SettledBut.mono {us vs : List UnitId} {s : State} (settled : SettledBut us s) (more : us ⊆ vs) :
    SettledBut vs s :=
  ⟨settled.one, fun v out => settled.served v fun mem => out (more mem)⟩

/-- A unit pass serves its unit, and takes no service from another. -/
theorem SettledBut.unitPass {us : List UnitId} {s : State} {u : UnitId} (settled : SettledBut (u :: us) s)
    (queues : QueueLaw s) (marks : MarkLaw s) (own : Option SlotId) : SettledBut us (s.unitPass own u) := by
  have grants := s.unitPass_grants own u
  suffices core : OneHold (s.unitPass own u) ∧ ServedAt (s.unitPass own u) u by
    refine ⟨core.1, fun v out => ?_⟩
    by_cases same : v = u
    · exact same ▸ core.2
    · exact grants.servedAt (settled.served v (by simp [same, out]))
  by_cases opened : (s.unit u).state = .opened
  · cases mark : (s.unit u).mark with
    | some i =>
      have held : (s.unitPass own u).holders u ≠ [] := fun free => by
        have before : s.holders u = [] := (State.holders_eq_nil_iff s u).mpr fun j a holds =>
          (State.holders_eq_nil_iff _ u).mp free j a (grants.hold j _ holds)
        exact nomatch (marks.unmarked_of_free before).symm.trans mark
      refine ⟨settled.one.of_fewer (fun j w holds => ?_) grants.wait, fun _ free => absurd free held⟩
      rw [State.unitPass_of_mark opened mark] at holds
      split at holds
      · rw [State.hold, State.post_record, ← State.hold, State.setMode_hold] at holds
        exact (State.hold_congr (State.clearMark_record s u j)).symm.trans holds
      · exact holds
    | none =>
      have oneB := State.stageB_oneHold own u queues settled.one
      have servedB := State.stageB_servedAt own u queues
      rw [State.unitPass_of_unmarked opened mark]
      split
      · next free =>
        have openB := (s.stageB_state own u u).trans opened
        exact ⟨State.stageC_oneHold own oneB openB free servedB, (State.stageC_grants _ own u).servedAt servedB⟩
      · exact ⟨oneB, servedB⟩
  · rw [State.unitPass_of_ne_opened opened]
    exact ⟨settled.one, fun open' => absurd open' opened⟩

theorem SettledBut.unitPasses {us : List UnitId} {s : State} (settled : SettledBut us s) (queues : QueueLaw s)
    (marks : MarkLaw s) : SettledBut [] (s.unitPasses us) := by
  induction us generalizing s with
  | nil => exact settled
  | cons u us ih =>
    exact ih (settled.unitPass queues marks none) ((s.passOn_chain none (.unit u)).keeps_queueLaw queues)
      (s.unitPass_keepsMarks none u marks).1

theorem SettledBut.poolPass {s : State} (settled : SettledBut [] s) (own : Option SlotId) (p : PoolId) :
    SettledBut [] (s.poolPass own p) := by
  unfold State.poolPass
  generalize allUnits = us
  induction us generalizing s with
  | nil => exact settled
  | cons u us ih =>
    refine ih (?_ : SettledBut [] (s.offer own p u))
    unfold State.offer
    split
    · next offered =>
      obtain ⟨_, opened, free⟩ := offered
      exact ⟨State.stageC_oneHold own settled.one opened (List.isEmpty_iff.mp free) (settled.served u (by simp)),
        fun v out => (s.stageC_grants own u).servedAt (settled.served v out)⟩
    · exact settled

theorem SettledBut.passOn {s : State} (settled : SettledBut [] s) (queues : QueueLaw s) (marks : MarkLaw s)
    (own : Option SlotId) (x : Target) : SettledBut [] (s.passOn own x) := by
  cases x with
  | unit u => exact (settled.mono (List.nil_subset [u])).unitPass queues marks own
  | pool p => exact settled.poolPass own p

end Sys2Proof.Machine
end

section
/-! SUPPORT. Every act and every run keeps one hold of an agent on a unit and the service of free units; the statement on
them. -/

namespace Sys2Proof.Machine

/-! ### The laws that the passes lean on -/

theorem KeepsMarks.of_removed {s t : State} {i : SlotId} {r : Record} (found : s.record i = some r)
    (record : ∀ j, t.record j = if j = i then none else s.record j)
    (place : ∀ u, (t.unit u).mark = ((s.leavePlace i r).unit u).mark) : KeepsMarks s t :=
  .of_departure none found record place fun _ => nofun

theorem Primitive.keeps_markLaw {s t : State} (change : Primitive s t) (law : MarkLaw s) : MarkLaw t := by
  cases change with
  | grant own u i r x d c found waits opened eligible fits unmarked =>
    exact (State.grant_keepsMarks own eligible unmarked law).1
  | unitBottom u a =>
    refine (s.setUnit_keepsMarks ?_ law).1
    exact fun _ => id
  | upgrade u i opened marked alone =>
    have kept := s.unitPass_keepsMarks none u law
    rw [State.unitPass_of_mark opened marked, if_pos alone] at kept
    exact kept.1
  | clearMark u => exact (s.clearMark_keepsMarks u law).1
  | setMark u i r found holds shared =>
    intro v j marked
    rw [State.unit_setUnit] at marked
    split at marked
    · next same => cases marked; exact ⟨r, found, same ▸ holds, shared⟩
    · exact law v j marked
  | upgradeAlone u i r found holds =>
    have held : s.holding i = some u := (State.holding_of_record found).trans (Record.holding_of_isHeldOn holds)
    exact (State.upgradeAlone_keepsMarks held law).1
  | downgrade u i => exact (s.setMode_keepsMarks (.inl rfl) law).1
  | depth i r u d d' c found holds => exact (KeepsMarks.of_reheld found holds (s.record_writeRecord i _) (fun _ => rfl) law).1
  | renew i r u d c q found holds => exact (KeepsMarks.of_reheld found holds (s.record_loadRecord i _) (fun _ => rfl) law).1
  | remove i r found =>
    exact (KeepsMarks.of_removed found (s.remove_record i r) (fun u => by rw [State.remove_unit]) law).1
  | readSpent a n rest r head live found =>
    have unread : MarkLaw (s.setNotice a { s.notice a with entries := rest }) := law
    refine (KeepsMarks.of_removed ?_ (State.remove_record _ n.handle.slot r) (fun u => by rw [State.remove_unit]) unread).1
    exact found
  | spend i r cause found =>
    exact (KeepsMarks.of_departure _ found (s.markSpent_record i r cause) (fun u => by rw [State.markSpent_unit])
      (fun _ => nofun) law).1
  | markRecalled i r u d c found holds => exact (State.markRecalled_keepsMarks found holds law).1
  | completeDrain u => exact (s.completeDrain_keepsMarks u law).1
  | endWalk a => exact (s.endWalk_keepsMarks a law).1
  | beginWalk a => exact (s.beginWalk_keepsMarks a law).1
  | countdown i r c found =>
    refine (KeepsMarks.of_restanding found (s.record_writeRecord i _) (fun _ => rfl) (fun u => ?_) ?_ law).1
    · unfold Record.isHeldOn; cases r.standing <;> rfl
    · unfold Record.holding; cases r.standing <;> rfl
  | configureUnit u config =>
    refine (s.setUnit_keepsMarks ?_ law).1
    exact fun _ => id
  | openUnit u =>
    refine (s.setUnit_keepsMarks ?_ law).1
    exact fun _ => id
  | startDrain u =>
    refine (s.setUnit_keepsMarks ?_ law).1
    exact fun _ => nofun
  | resetLive => exact (KeepsMarks.of_unmarked (fun u => by rw [State.cleared_unit]) law).1
  | hardwareReset => exact (KeepsMarks.of_unmarked (fun u => by rw [State.hardwareReset_unit]) law).1
  | _ => exact law

theorem Primitive.sound {s t : State} (change : Primitive s t) (law : Sound s) : Sound t :=
  ⟨change.keeps_queueLaw law.queues, change.keeps_markLaw law.marks, change.keeps_bandLaw law.queues law.bands,
    change.keeps_sessionLaw law.sessions⟩

theorem Allocation.sound {s t : State} (new : Allocation s t) (law : Sound s) : Sound t :=
  ⟨new.keeps_queueLaw law.queues, (new.keepsMarks law.marks).1, new.keeps_bandLaw law.bands,
    new.keeps_sessionLaw law.sessions⟩

theorem Chain.sound {s t : State} (chain : Chain s t) (law : Sound s) : Sound t :=
  chain.keeps (fun _ _ => Primitive.sound) law

/-! ### Changes that serve and free nothing -/

theorem SettledBut.of_change {us : List UnitId} {s t : State} (settled : SettledBut us s)
    (opened : ∀ v, v ∉ us → (t.unit v).state = .opened → (s.unit v).state = .opened)
    (hold : ∀ i, t.hold i = s.hold i) (wait : ∀ i w, t.wait i = some w → s.wait i = some w)
    (permits : ∀ v, v ∉ us → ∀ i a, t.wait i = some (a, .unit v) → t.mayBeGranted a v = true →
      s.mayBeGranted a v = true) : SettledBut us t :=
  ⟨settled.one.of_fewer (fun i _ holds => hold i ▸ holds) wait,
    fun v out => (settled.served v out).of_change (opened v out) (fun i _ holds => (hold i).trans holds)
      (fun i _ waits => wait i _ waits) (permits v out)⟩

theorem Calm.settledBut {us : List UnitId} {s t : State} (calm : Calm s t) (change : Primitive s t)
    (settled : SettledBut us s) : SettledBut us t := by
  refine settled.of_change (fun v _ opened => ?_) calm.hold (fun _ _ => change.wait)
    fun v _ _ a _ => calm.permits a v
  rcases calm.state v with same | ⟨_, closed⟩
  · exact same ▸ opened
  · exact nomatch opened.symm.trans closed

/-- The band permits a unit's own waiters their unit: whether it may be granted to them depends on their session alone. -/
theorem BandLaw.mayBeGranted {s : State} (law : BandLaw s) {i : SlotId} {a : AgentId} {v : UnitId}
    (waits : s.wait i = some (a, .unit v)) :
    s.mayBeGranted a v = true ↔ (s.agent a).state = .attached ∧ (s.agent a).held = false := by
  obtain ⟨r, found, owner, d, c, standing⟩ := State.wait_eq_some.mp waits
  have permitted := law i r v found (.inr ⟨d, c, standing⟩)
  rw [owner, State.bandPermits_iff] at permitted
  simp [State.mayBeGranted_iff, permitted]

theorem SettledBut.of_session {us : List UnitId} {s t : State} (settled : SettledBut us s) (bands : BandLaw s)
    (record : ∀ i, t.record i = s.record i) (unit : ∀ v, t.unit v = s.unit v)
    (session : ∀ v, v ∉ us → ∀ i a, s.wait i = some (a, .unit v) → (t.agent a).state = .attached →
      (t.agent a).held = false → (s.agent a).state = .attached ∧ (s.agent a).held = false) : SettledBut us t := by
  refine settled.of_change (fun v _ opened => unit v ▸ opened) (fun i => State.hold_congr (record i))
    (fun i _ waits => State.wait_congr (record i) ▸ waits) fun v out i a waits may => ?_
  have waited : s.wait i = some (a, .unit v) := State.wait_congr (record i) ▸ waits
  obtain ⟨attached, free, _⟩ := (t.mayBeGranted_iff a v).mp may
  exact (bands.mayBeGranted waited).mpr (session v out i a waited attached free)

theorem settledBut_of_free {s : State} (free : ∀ i, s.record i = none) : SettledBut [] s :=
  ⟨⟨fun i _ _ holds => by simp [State.hold, free] at holds, fun i _ _ _ holds => by simp [State.hold, free] at holds⟩,
    fun _ _ _ _ i _ waits => by simp [State.wait, free] at waits⟩

/-! ### Departures -/

/-- The record that departs leaves no hold and no wait; the unit that it held awaits its pass. -/
theorem SettledBut.of_departure {s t : State} (settled : SettledBut [] s) {i : SlotId} {r : Record} {left : Option Record}
    (found : s.record i = some r) (record : ∀ j, t.record j = if j = i then left else s.record j)
    (free : left.bind Record.hold = none) (idle : left.bind Record.wait = none)
    (state : ∀ v, (t.unit v).state = (s.unit v).state)
    (permits : ∀ a v, t.mayBeGranted a v = true → s.mayBeGranted a v = true) :
    SettledBut r.holding.toList t := by
  have hold (j : SlotId) : t.hold j = if j = i then none else s.hold j := by
    rw [State.hold, record]
    split
    · exact free
    · rfl
  have wait (j : SlotId) : t.wait j = if j = i then none else s.wait j := by
    rw [State.wait, record]
    split
    · exact idle
    · rfl
  have waited (j : SlotId) (w : AgentId × Target) (waits : t.wait j = some w) : s.wait j = some w := by
    rw [wait, Option.ite_none_left_eq_some] at waits
    exact waits.2
  refine ⟨settled.one.of_fewer (fun j w holds => ?_) waited,
    fun v out => (settled.served v (by simp)).of_change (fun opened => state v ▸ opened) (fun j b holds => ?_)
      (fun j b => waited j _) fun _ b _ => permits b v⟩
  · rw [hold, Option.ite_none_left_eq_some] at holds
    exact holds.2
  · rw [hold, if_neg]
    · exact holds
    · rintro rfl
      obtain ⟨q, stood, _, held⟩ := State.hold_eq_some.mp holds
      cases found.symm.trans stood
      exact out (by simp [held])

theorem SettledBut.completeDrain {us : List UnitId} {s : State} (settled : SettledBut us s) (u : UnitId) :
    SettledBut us (s.completeDrain u) := by
  refine settled.of_change (fun v _ opened => ?_) (fun i => State.hold_congr (s.completeDrain_record u i))
    (fun _ _ => (Primitive.completeDrain s u).wait) fun v _ _ a _ may => ?_
  · exact (s.isOpen_iff v).mp (s.completeDrain_isOpen u v ▸ ((s.completeDrain u).isOpen_iff v).mpr opened)
  · rwa [State.mayBeGranted_congr (s := s) (by simp) (by simp) (by simp)] at may

theorem SettledBut.afterDeparture {p : State} {r : Record} (settled : SettledBut r.holding.toList p) (queues : QueueLaw p)
    (marks : MarkLaw p) : SettledBut [] (p.afterDeparture r) := by
  cases standing : r.standing <;> simp only [Record.holding, standing] at settled <;>
    simp only [State.afterDeparture, standing]
  case waiting x d c => exact settled.passOn queues marks none x
  case held u d c => exact (settled.unitPass queues marks none).completeDrain u
  case recalled u d c => exact (settled.unitPass queues marks none).completeDrain u
  case spent => exact settled

theorem SettledBut.retire {s : State} (settled : SettledBut [] s) (law : Sound s) (i : SlotId) :
    SettledBut [] (s.retire i) := by
  unfold State.retire
  split
  · exact settled
  · next r found =>
    have removed := (Primitive.remove s i r found).sound law
    refine SettledBut.afterDeparture (settled.of_departure found (s.remove_record i r) rfl rfl (fun v => ?_) fun a v => ?_)
      removed.queues removed.marks
    · rw [State.remove_unit, State.leavePlace_unit]
    · refine State.mayBeGranted_of_away ?_ (by simp) (by simp)
      rw [State.remove_agent]
      split
      · exact .inr nofun
      · exact .inl rfl

theorem SettledBut.spend {s : State} (settled : SettledBut [] s) (law : Sound s) (i : SlotId) (cause : SpentCause)
    (fits : ∀ r, s.record i = some r → r.isSpent = false ∧ r.standing.claim.mayEndAs cause) :
    SettledBut [] (s.spend i cause) := by
  unfold State.spend
  split
  · exact settled
  · next r found =>
    split
    · next attached =>
      obtain ⟨unspent, ends⟩ := fits r found
      have spent := (Primitive.spend s i r cause found attached unspent ends).sound law
      refine SettledBut.afterDeparture (settled.of_departure found (s.markSpent_record i r cause) rfl rfl (fun v => ?_)
        fun a v may => ?_) spent.queues spent.marks
      · rw [State.markSpent_unit, State.leavePlace_unit]
      · rwa [State.mayBeGranted_congr (s := s) (by simp) (by simp) (by simp)] at may
    · exact settled.retire law i

/-! ### Acts and runs -/

theorem Act.settled {s t : State} (act : Act s t) (law : Sound s) (settled : SettledBut [] s) : SettledBut [] t := by
  cases act with
  | calm change calm => exact calm.settledBut change settled
  | attach a free =>
    refine settled.of_session law.bands (fun _ => rfl) (fun _ => rfl) fun v _ i b waits attached unheld => ?_
    rw [State.agent_setAgent] at attached unheld
    split at attached
    · next same =>
      obtain ⟨r, found, owner, _⟩ := State.wait_eq_some.mp waits
      have live := (law.sessions.1 i r found).1
      rw [owner, same] at live
      exact absurd free live
    · next other => rw [if_neg other] at unheld; exact ⟨attached, unheld⟩
  | clearance a yes =>
    refine settled.of_session law.bands (fun _ => rfl) (fun _ => rfl) fun v _ i b waits attached unheld => ?_
    rw [State.agent_setAgent] at attached unheld
    split at attached
    · next same => rw [if_pos same] at unheld; exact same ▸ ⟨attached, unheld⟩
    · next other => rw [if_neg other] at unheld; exact ⟨attached, unheld⟩
  | pass own x => exact settled.passOn law.queues law.marks own x
  | retire i => exact settled.retire law i
  | spend i cause fits => exact settled.spend law i cause fits
  | reopen u closed =>
    have begun := (Primitive.openUnit s u closed).sound law
    refine SettledBut.unitPass ?_ begun.queues begun.marks none
    refine (settled.mono (List.nil_subset [u])).of_change (fun v out opened => ?_) (fun _ => rfl) (fun _ _ => id)
      fun _ _ _ _ _ => id
    rwa [State.unit_setUnit_of_ne _ _ (by simpa using out)] at opened
  | raise c thawed range rises =>
    have begun := (Primitive.ceiling s c thawed range (.inl rises)).sound law
    refine SettledBut.unitPasses ?_ begun.queues begun.marks
    exact (settled.mono (List.nil_subset _)).of_session law.bands (fun _ => rfl) (fun _ => rfl)
      fun _ _ _ _ _ attached unheld => ⟨attached, unheld⟩
  | resume a attached =>
    have begun := (Primitive.hold s a false attached).sound law
    refine SettledBut.unitPasses ?_ begun.queues begun.marks
    refine (settled.mono (List.nil_subset _)).of_session law.bands (fun _ => rfl) (fun _ => rfl)
      fun v out i b waits attached unheld => ?_
    rw [State.agent_setAgent] at attached unheld
    split at attached
    · next same =>
      subst same
      refine absurd (List.mem_filter.mpr ⟨List.mem_finRange v, ?_⟩) out
      by_contra absent
      have mem : i ∈ (s.unit v).queue := (law.queues.mem_queueAt (x := .unit v)).mpr ⟨b, waits⟩
      exact State.wait_ne_of_waitsIn_eq_false (by simpa using absent) mem (.unit v) waits
    · next other => rw [if_neg other] at unheld; exact ⟨attached, unheld⟩
  | clear => exact settledBut_of_free s.cleared_record

theorem Acts.settled {s t : State} (acts : Acts s t) (law : Sound s) (settled : SettledBut [] s) : SettledBut [] t := by
  have both := acts.keeps (P := fun p => Sound p ∧ SettledBut [] p)
    (fun _ _ act before => ⟨act.chain.sound before.1, act.settled before.1 before.2⟩) ⟨law, settled⟩
  exact both.2

theorem State.hold_ne_of_holderOf {s : State} {a : AgentId} {u : UnitId} (none : s.holderOf a u = none) (i : SlotId) :
    s.hold i ≠ some (a, u) := by
  intro holds
  obtain ⟨r, found, owner, held⟩ := State.hold_eq_some.mp holds
  have other := List.find?_eq_none.mp none i ((s.mem_holders u i).mpr ⟨r, found, held⟩)
  simp [State.owner, found, owner] at other

/-- The agent of a new request does not hold the unit that it asks for (R48). -/
theorem Allocation.unheld {s t : State} (new : Allocation s t) {i : SlotId} {a : AgentId} {u : UnitId}
    (free : s.record i = none) (waits : t.wait i = some (a, .unit u)) (j : SlotId) : s.hold j ≠ some (a, u) := by
  obtain ⟨k, b, mode, x, requested, waitLimit, _, _, _, _, _, onUnit, _⟩ := new
  rw [State.allocate_wait] at waits
  split at waits
  · cases waits
    obtain ⟨_, _, unheld, _⟩ := onUnit u rfl
    exact State.hold_ne_of_holderOf unheld j
  · exact nomatch (State.wait_of_free free).symm.trans waits

/-- A new waiter of a unit awaits the pass on it. -/
theorem SettledBut.allocate {s : State} (settled : SettledBut [] s) {i : SlotId} {a : AgentId} {mode : Mode} {x : Target}
    {requested waitLimit : Nat} (new : Allocation s (s.allocate i a mode x requested waitLimit))
    (free : s.record i = none) (us : List UnitId) (pending : ∀ u, x = .unit u → u ∈ us) :
    SettledBut us (s.allocate i a mode x requested waitLimit) := by
  have record := s.allocate_record i a mode x requested waitLimit
  have wait := s.allocate_wait i a mode x requested waitLimit
  have hold (j : SlotId) : (s.allocate i a mode x requested waitLimit).hold j = s.hold j := by
    rw [State.hold, record]
    split
    · next same => rw [same, State.hold, free]; rfl
    · rfl
  refine ⟨⟨fun j k w hj hk => settled.one.once j k w (hold j ▸ hj) (hold k ▸ hk), fun j k b u hj hk => ?_⟩,
    fun v out => (settled.served v (by simp)).of_change (fun opened => ?_) (fun j b holds => (hold j).trans holds)
      (fun j b waits => ?_) fun _ b _ may => ?_⟩
  · rw [hold] at hj
    by_cases same : k = i
    · subst same; exact new.unheld free hk j hj
    · rw [wait, if_neg same] at hk
      exact settled.one.apart j k b u hj hk
  · rw [State.allocate_unit] at opened
    split at opened <;> exact opened
  · rw [wait] at waits
    split at waits
    · cases waits; exact absurd (pending v rfl) out
    · exact waits
  · rwa [State.mayBeGranted_congr (s := s) (by simp) (by simp) (by simp)] at may

theorem Run.settled {s t : State} (run : Run s t) (law : Sound s) (settled : SettledBut [] s) : SettledBut [] t := by
  cases run with
  | acts acts => exact acts.settled law settled
  | drain before u opened =>
    have lawP := before.chain.sound law
    refine (State.drain_acts _ u).settled ((Primitive.startDrain _ u opened).sound lawP) ?_
    refine (before.settled law settled).of_change (fun v _ opened => ?_) (fun _ => rfl) (fun _ _ => id)
      fun _ _ _ _ _ => id
    rw [State.unit_setUnit] at opened
    split at opened
    · cases opened
    · exact opened
  | @request aid code p t here i mode x requested waitLimit new lowest after =>
    subst here
    have taken := s.taken_acts aid code
    have lawN := new.sound (taken.chain.sound law)
    have free := (State.freeSlot_eq_some lowest).1
    have begun := (taken.settled law settled).allocate new free
    refine after.settled ((State.passOn_chain _ (some i) x).sound lawN) ?_
    cases x with
    | unit u => exact (begun [u] (by simp)).unitPass lawN.queues lawN.marks _
    | pool p => exact (begun [] (by simp)).poolPass _ p

theorem Run.sound {s t : State} (run : Run s t) (law : Sound s) : Sound t :=
  run.keeps (fun _ _ => Primitive.sound) (fun _ _ => Allocation.sound) law

/-- No law reads the queue of commands, RST_N or ERR_N. -/
theorem Sound.of_pins {s : State} (law : Sound s) (port : PortPins) (reset : Bool) (queue : List Instr) :
    Sound { s with port := port, inReset := reset, pending := queue } :=
  ⟨law.queues, law.marks, law.bands, law.sessions⟩

theorem SettledBut.of_pins {us : List UnitId} {s : State} (settled : SettledBut us s) (port : PortPins) (reset : Bool)
    (queue : List Instr) : SettledBut us { s with port := port, inReset := reset, pending := queue } :=
  ⟨⟨settled.one.once, settled.one.apart⟩, settled.served⟩

theorem sound_afterPowerOn (straps : AgentId) : Sound (State.afterPowerOn straps) := by
  refine ⟨queueLaw_afterPowerOn straps, fun u i marked => ?_, bandLaw_of_free (State.afterPowerOn_record straps),
    (sessionLaw_iff _).mpr fun a => inSession_of_reset (State.afterPowerOn_record straps) ?_ ?_⟩
  · rw [State.afterPowerOn_unit] at marked
    cases marked
  · rw [State.afterPowerOn_agent]; exact nofun
  · rw [State.afterPowerOn_notice]

/-- Settles O59: every act passes the units whose service it disturbs, so that no free unit keeps an eligible waiter; and
no grant gives an agent a unit that it holds or waits for. -/
theorem oneHoldKept : Obligations.OneHoldKept := by
  intro s t one served queues marks bands _ sessions run
  have settled : SettledBut [] s := ⟨(oneHoldLaw_iff s).mp one, fun v _ => (servedLaw_iff queues).mp served v⟩
  have kept := step_keeps_of_run (P := fun p => Sound p ∧ SettledBut [] p)
    (fun p q run before => ⟨run.sound before.1, run.settled before.1 before.2⟩)
    (fun p before => ⟨(Primitive.hardwareReset p).sound before.1, settledBut_of_free p.hardwareReset_record⟩)
    (fun p before => ⟨before.1.of_pins _ false p.pending, before.2.of_pins _ false p.pending⟩)
    (fun straps p _ => ⟨(sound_afterPowerOn straps).of_pins _ p.inReset p.pending,
      settledBut_of_free (State.afterPowerOn_record straps)⟩)
    (fun p q before => ⟨before.1.of_pins p.port p.inReset q, before.2.of_pins p.port p.inReset q⟩)
    ⟨⟨queues, marks, bands, sessions⟩, settled⟩ run
  exact ⟨(oneHoldLaw_iff t).mpr kept.2.one, (servedLaw_iff kept.1.queues).mpr fun v => kept.2.served v (by simp)⟩

end Sys2Proof.Machine
end

section
/-! SUPPORT. Sessions (spec/08): the checks and the effects of ATTACH, HOLD_AGENT, RESUME_AGENT and SET_QUOTA, and the
statements on them. -/

namespace Sys2Proof.Machine

/-! ### What the numbers of an argument word name -/

theorem agentOf_of_eq_val {n : Nat} {a : AgentId} (h : n = a.val) : agentOf n = some a := by
  simp [agentOf, h]

theorem agentOf_eq_none {n : Nat} (h : 15 < n) : agentOf n = none := dif_neg (by omega)

theorem slotOf_of_eq_val {n : Nat} {i : SlotId} (h : n = i.val) : slotOf n = some i := by
  simp [slotOf, h]

theorem slotOf_eq_none {n : Nat} (h : 95 < n) : slotOf n = none := dif_neg (by omega)

theorem modeOf_of_eq_no {n : Nat} {m : Mode} (h : n = m.no) : modeOf n = some m := by
  subst h; cases m <;> rfl

theorem modeOf_eq_none {n : Nat} (h : 1 < n) : modeOf n = none := by
  obtain ⟨k, rfl⟩ := Nat.exists_eq_add_of_le' h
  rfl

theorem sourceOf_of_eq_no {n : Nat} {x : TickSource} (h : n = x.no) : sourceOf n = some x := by
  subst h; cases x <;> rfl

theorem sourceOf_eq_none {n : Nat} (h : 2 < n) : sourceOf n = none := by
  obtain ⟨k, rfl⟩ := Nat.exists_eq_add_of_le' h
  rfl

/-! ### ATTACH (R138) -/

section Attach

variable {aid : AgentId} {s : State}

theorem attach_alreadyAttached (ready : Ready aid s) (attached : (s.agent aid).state = .attached) :
    Refuses (.attach aid) s aid 0x01 Reason.alreadyAttached aid.val := by
  rw [Refuses, exec_attach, execAttach, atAgentStation_ready ready]
  simp [attached]

theorem attach_noQuota (ready : Ready aid s) (detached : (s.agent aid).state = .detached)
    (none : (s.agent aid).quota = 0) : Refuses (.attach aid) s aid 0x01 Reason.quota aid.val := by
  rw [Refuses, exec_attach, execAttach, atAgentStation_ready ready]
  simp [detached, none]

theorem attach_taken (ready : Ready aid s) (detached : (s.agent aid).state = .detached)
    (some : (s.agent aid).quota ≠ 0) :
    exec (.attach aid) s = .next
      (((s.replied aid 0x01 (.ok (place 0 4 (s.agent aid).quota ||| place 8 1 (flagNo (s.clearance aid))) 0)).setAgent aid
        { s.agent aid with state := .attached, held := false }).setNotice aid
        { s.notice aid with attention := true }) := by
  rw [exec_attach, execAttach, atAgentStation_ready ready]
  simp [detached, some]

end Attach

/-- Settles O13: the agent's state and its quota decide. -/
theorem attach : Obligations.Attach := fun _ _ ready =>
  ⟨attach_alreadyAttached ready, fun detached => ⟨attach_noQuota ready detached, fun some =>
    attach_taken ready detached (Nat.pos_iff_ne_zero.mp some)⟩⟩

/-! ### HOLD_AGENT and RESUME_AGENT (R149, R150) -/

section OnAttachedAgent

variable {aid a : AgentId} {s : State} {code : Word} {body : State → AgentId → State}

/-- The three refusals of the commands on an ATTACHED agent. -/
theorem onAttachedAgent_badArgument (sup : Supervises aid s) (high : 15 < bitField s.control.arg0 0 8) :
    atControlStation code aid (fun s => s.onAttachedAgent (body s)) s =
      .next (s.repliedControl code (.refuse Reason.badArgument 0)) := by
  rw [atControlStation_supervises sup]
  simp [State.onAttachedAgent, agentOf_eq_none high]

theorem onAttachedAgent_notAttached (sup : Supervises aid s) (named : bitField s.control.arg0 0 8 = a.val)
    (detached : (s.agent a).state = .detached) :
    atControlStation code aid (fun s => s.onAttachedAgent (body s)) s =
      .next (s.repliedControl code (.refuse Reason.notAttached a.val)) := by
  rw [atControlStation_supervises sup]
  simp [State.onAttachedAgent, agentOf_of_eq_val named, detached]

theorem onAttachedAgent_detaching (sup : Supervises aid s) (named : bitField s.control.arg0 0 8 = a.val)
    (detaching : (s.agent a).state = .detaching) :
    atControlStation code aid (fun s => s.onAttachedAgent (body s)) s =
      .next (s.repliedControl code (.refuse Reason.detaching a.val)) := by
  rw [atControlStation_supervises sup]
  simp [State.onAttachedAgent, agentOf_of_eq_val named, detaching]

theorem onAttachedAgent_attached (sup : Supervises aid s) (named : bitField s.control.arg0 0 8 = a.val)
    (attached : (s.agent a).state = .attached) :
    atControlStation code aid (fun s => s.onAttachedAgent (body s)) s = .next (body (s.takenControl code) a) := by
  rw [atControlStation_supervises sup]
  simp [State.onAttachedAgent, agentOf_of_eq_val named, attached]

end OnAttachedAgent

/-- HOLD_AGENT on an ATTACHED agent. -/
def State.holdAgent (s : State) (a : AgentId) : State :=
  if (s.agent a).held then s.answerControl (.ok 0 0)
  else ((s.setAgent a { s.agent a with held := true }).unitPasses (s.unitsWaitedFor a)).answerWaits a

/-- RESUME_AGENT on an ATTACHED agent. -/
def State.resumeAgent (s : State) (a : AgentId) : State :=
  if (s.agent a).held then
    (((s.setAgent a { s.agent a with held := false }).unitPasses (s.unitsWaitedFor a)).poolPasses
      (s.poolsWaitedFor a)).answerWaits a
  else s.answerControl (.ok 0 0)

theorem exec_holdAgent_eq (aid : AgentId) (s : State) :
    exec (.holdAgent aid) s = atControlStation 0x2C aid (fun s => s.onAttachedAgent s.holdAgent) s := rfl

theorem exec_resumeAgent_eq (aid : AgentId) (s : State) :
    exec (.resumeAgent aid) s = atControlStation 0x2D aid (fun s => s.onAttachedAgent s.resumeAgent) s := rfl

/-- Settles O17: the refusals are those of every command on an ATTACHED agent; the held flag decides the rest. -/
theorem holdAndResume : Obligations.HoldAndResume := by
  intro aid s sup
  simp only [RefusesControl, exec_holdAgent_eq, exec_resumeAgent_eq]
  refine ⟨fun high => ⟨onAttachedAgent_badArgument sup high, onAttachedAgent_badArgument sup high⟩, fun a named =>
    ⟨fun away => ⟨onAttachedAgent_notAttached sup named away, onAttachedAgent_notAttached sup named away⟩,
      fun leaves => ⟨onAttachedAgent_detaching sup named leaves, onAttachedAgent_detaching sup named leaves⟩,
      fun attached => ?_⟩⟩
  simp only [onAttachedAgent_attached sup named attached, State.holdAgent, State.resumeAgent, State.takenControl_agent]
  refine ⟨fun held => ⟨?again, fun p passed => ?resumed⟩, fun free => ⟨?already, fun p passed => ?held⟩⟩
  case again => rw [if_pos held]; rfl
  case resumed => rw [if_pos held, passed]; rfl
  case already => rw [if_neg (by simp [free])]; rfl
  case held => rw [if_neg (by simp [free]), passed]; rfl

/-! ### SET_QUOTA (R151) -/

section SetQuota

variable {aid a : AgentId} {s : State} {q : Nat}

theorem setQuota_noAgent (sup : Supervises aid s) (thawed : s.frozen = false) (high : 15 < bitField s.control.arg0 0 8) :
    RefusesControl (.setQuota aid) s 0x25 Reason.badArgument 0 := by
  rw [RefusesControl, exec_setQuota, execSetQuota, atControlStation_supervises sup]
  simp [thawed, agentOf_eq_none high]

theorem setQuota_badArgument (sup : Supervises aid s) (thawed : s.frozen = false)
    (named : bitField s.control.arg0 0 8 = a.val) (asked : bitField s.control.arg1 0 8 = q) (high : 8 < q) :
    RefusesControl (.setQuota aid) s 0x25 Reason.badArgument a.val := by
  rw [RefusesControl, exec_setQuota, execSetQuota, atControlStation_supervises sup]
  simp [thawed, agentOf_of_eq_val named, asked, high]

theorem setQuota_inUse (sup : Supervises aid s) (thawed : s.frozen = false)
    (named : bitField s.control.arg0 0 8 = a.val) (asked : bitField s.control.arg1 0 8 = q) (range : q ≤ 8)
    (less : q < s.recordCount a) : RefusesControl (.setQuota aid) s 0x25 Reason.quotaInUse a.val := by
  rw [RefusesControl, exec_setQuota, execSetQuota, atControlStation_supervises sup]
  simp [thawed, agentOf_of_eq_val named, asked, Nat.not_lt.mpr range, less]

theorem setQuota_written (sup : Supervises aid s) (thawed : s.frozen = false)
    (named : bitField s.control.arg0 0 8 = a.val) (asked : bitField s.control.arg1 0 8 = q) (range : q ≤ 8)
    (room : s.recordCount a ≤ q) :
    exec (.setQuota aid) s = .next
      ((s.repliedControl 0x25 (.ok (place 0 4 q ||| place 8 4 (s.recordCount a)) 0)).setAgent a
        { s.agent a with quota := q }) := by
  rw [exec_setQuota, execSetQuota, atControlStation_supervises sup]
  simp [thawed, agentOf_of_eq_val named, asked, Nat.not_lt.mpr range, Nat.not_lt.mpr room]

end SetQuota

/-- Settles O18: a lemma for each check. -/
theorem setQuota : Obligations.SetQuota := fun _ _ sup =>
  ⟨setQuota_frozen sup, fun thawed => ⟨setQuota_noAgent sup thawed, fun _ _ named asked =>
    ⟨setQuota_badArgument sup thawed named asked, setQuota_inUse sup thawed named asked,
      setQuota_written sup thawed named asked⟩⟩⟩

end Sys2Proof.Machine
end

section
/-! SUPPORT. OPEN_UNIT, RESTORE_UNIT and SET_BOTTOM (spec/01, spec/04 R82), SET_BAND and SET_CLEARANCE (spec/09 R155 to
R157), and the statements on them. -/

namespace Sys2Proof.Machine

/-! ### OPEN_UNIT and RESTORE_UNIT (R13, R163) -/

section Service

variable {aid : AgentId} {s : State} {u : UnitId}

theorem openUnit_noUnit (sup : Supervises aid s) (high : 63 < bitField s.control.arg0 0 8) :
    RefusesControl (.openUnit aid) s 0x27 Reason.noUnit 0 := by
  rw [RefusesControl, exec_openUnit, execOpenUnit, atControlStation_supervises sup]
  simp [unitOf_eq_none high]

theorem openUnit_unitState (sup : Supervises aid s) (named : bitField s.control.arg0 0 8 = u.val)
    (inService : (s.unit u).state ≠ .offline) : RefusesControl (.openUnit aid) s 0x27 Reason.unitState u.val := by
  rw [RefusesControl, exec_openUnit, execOpenUnit, atControlStation_supervises sup]
  simp [unitOf_of_eq_val named, inService]

theorem openUnit_taken (sup : Supervises aid s) (named : bitField s.control.arg0 0 8 = u.val)
    (offline : (s.unit u).state = .offline) :
    exec (.openUnit aid) s = .next ((((s.takenControl 0x27).setUnit u { s.unit u with state := .opened }).unitPass none
      u).answerControl (.ok 0 0)) := by
  rw [exec_openUnit, execOpenUnit, atControlStation_supervises sup]
  simp [unitOf_of_eq_val named, offline]

theorem restoreUnit_noUnit (sup : Supervises aid s) (high : 63 < bitField s.control.arg0 0 8) :
    RefusesControl (.restoreUnit aid) s 0x29 Reason.noUnit 0 := by
  rw [RefusesControl, exec_restoreUnit, execRestoreUnit, atControlStation_supervises sup]
  simp [unitOf_eq_none high]

theorem restoreUnit_unitState (sup : Supervises aid s) (named : bitField s.control.arg0 0 8 = u.val)
    (steady : (s.unit u).state ≠ .draining) : RefusesControl (.restoreUnit aid) s 0x29 Reason.unitState u.val := by
  rw [RefusesControl, exec_restoreUnit, execRestoreUnit, atControlStation_supervises sup]
  simp [unitOf_of_eq_val named, steady]

theorem restoreUnit_taken (sup : Supervises aid s) (named : bitField s.control.arg0 0 8 = u.val)
    (draining : (s.unit u).state = .draining) {p : State}
    (passed : p = ((s.takenControl 0x29).setUnit u { s.unit u with state := .opened }).unitPass none u) :
    exec (.restoreUnit aid) s = .next (p.answerControl (.ok (place 0 3 (p.holders u).length) 0)) := by
  rw [exec_restoreUnit, execRestoreUnit, atControlStation_supervises sup, passed]
  simp [unitOf_of_eq_val named, draining]

end Service

/-! ### SET_BOTTOM (R82) -/

section SetBottom

variable {aid : AgentId} {s : State} {x : Target}

theorem setBottom_badKind (sup : Supervises aid s) (high : 1 < bitField s.control.arg0 0 2) :
    RefusesControl (.setBottom aid) s 0x2F Reason.badArgument 0 := by
  rw [RefusesControl, exec_setBottom, execSetBottom, atControlStation_supervises sup]
  simp [flagOf_eq_none high]

theorem setBottom_noUnit (sup : Supervises aid s) (kind : bitField s.control.arg0 0 2 = 0)
    (high : 63 < bitField s.control.arg1 0 8) : RefusesControl (.setBottom aid) s 0x2F Reason.noUnit 0 := by
  rw [RefusesControl, exec_setBottom, execSetBottom, atControlStation_supervises sup]
  simp [kind, flagOf, unitOf_eq_none high]

theorem setBottom_noPool (sup : Supervises aid s) (kind : bitField s.control.arg0 0 2 = 1)
    (high : 7 < bitField s.control.arg1 0 8) : RefusesControl (.setBottom aid) s 0x2F Reason.noPool 0 := by
  rw [RefusesControl, exec_setBottom, execSetBottom, atControlStation_supervises sup]
  simp [kind, flagOf, poolOf_eq_none high]

theorem exec_setBottom_unit {u : UnitId} (sup : Supervises aid s) (kind : bitField s.control.arg0 0 2 = 0)
    (named : bitField s.control.arg1 0 8 = u.val) :
    exec (.setBottom aid) s = .next ((s.takenControl 0x2F).setBottomOf (.unit u)) := by
  rw [exec_setBottom, execSetBottom, atControlStation_supervises sup]
  simp [kind, flagOf, unitOf_of_eq_val named]

theorem exec_setBottom_pool {p : PoolId} (sup : Supervises aid s) (kind : bitField s.control.arg0 0 2 = 1)
    (named : bitField s.control.arg1 0 8 = p.val) :
    exec (.setBottom aid) s = .next ((s.takenControl 0x2F).setBottomOf (.pool p)) := by
  rw [exec_setBottom, execSetBottom, atControlStation_supervises sup]
  simp [kind, flagOf, poolOf_of_eq_val named]

theorem State.setBottomOf_noAgent (high : 15 < bitField s.control.arg2 0 8) :
    (s.takenControl 0x2F).setBottomOf x = s.repliedControl 0x2F (.refuse Reason.badArgument x.number) := by
  simp [State.setBottomOf, agentOf_eq_none high]

theorem State.setBottomOf_agent {a : AgentId} (named : bitField s.control.arg2 0 8 = a.val) :
    (s.takenControl 0x2F).setBottomOf x =
      (((s.takenControl 0x2F).writeBottom x a).passOn none x).answerControl (.ok 0 0) := by
  simp [State.setBottomOf, agentOf_of_eq_val named]

end SetBottom

/-- Settles O20: a lemma for each check of the three commands. -/
theorem openRestoreAndSetBottom : Obligations.OpenRestoreAndSetBottom := by
  refine ⟨fun aid s sup => ⟨fun high => ⟨openUnit_noUnit sup high, restoreUnit_noUnit sup high⟩, fun u named =>
      ⟨openUnit_unitState sup named, openUnit_taken sup named, restoreUnit_unitState sup named,
        fun draining _ passed => restoreUnit_taken sup named draining passed⟩⟩,
    fun aid s sup => ⟨setBottom_badKind sup, fun kind => ⟨setBottom_noUnit sup kind, fun u named => ?unit⟩,
      fun kind => ⟨setBottom_noPool sup kind, fun p named => ?pool⟩⟩⟩
  case unit =>
    simp only [RefusesControl, exec_setBottom_unit sup kind named]
    exact ⟨fun high => congrArg _ (State.setBottomOf_noAgent high), fun a agent =>
      congrArg _ (State.setBottomOf_agent agent)⟩
  case pool =>
    simp only [RefusesControl, exec_setBottom_pool sup kind named]
    exact ⟨fun high => congrArg _ (State.setBottomOf_noAgent high), fun a agent =>
      congrArg _ (State.setBottomOf_agent agent)⟩

/-! ### The lowest unit of a range (R156, R157) -/

theorem unitsFrom_find?_eq_some {low high : Nat} {test : UnitId → Bool} {u : UnitId} (above : low ≤ u.val)
    (below : u.val < high) (named : test u = true) (lowest : ∀ v : UnitId, low ≤ v.val → v < u → test v = false) :
    (unitsFrom low high).find? test = some u := by
  rw [unitsFrom, List.find?_filter, allUnits, List.find?_eq_some_iff_getElem]
  refine ⟨by simp [above, below, named], u.val, by simp, by simp, fun j before => ?_⟩
  have range : j < 64 := by omega
  have passed := lowest ⟨j, range⟩
  by_cases under : low ≤ j
  · simp [passed under before]
  · simp [under]

theorem unitsFrom_find?_eq_none {low high : Nat} {test : UnitId → Bool}
    (clear : ∀ v : UnitId, low ≤ v.val → v.val < high → test v = false) : (unitsFrom low high).find? test = none := by
  refine List.find?_eq_none.mpr fun v mem => ?_
  obtain ⟨above, below⟩ := mem_unitsFrom.mp mem
  simp [clear v above below]

/-- Where the queues are in order, the test finds the agents that occupy the unit. -/
theorem QueueLaw.occupiedBy_iff_occupies {s : State} (law : QueueLaw s) (u : UnitId) (test : AgentId → Bool) :
    s.occupiedBy u test = true ↔ ∃ a, test a = true ∧ Occupies s a u := by
  simp only [law.occupiedBy_iff, State.occupies_iff]
  exact ⟨fun ⟨i, r, found, occupies, named⟩ => ⟨r.agent, named, i, r, found, rfl, occupies⟩,
    fun ⟨a, named, i, r, found, owner, occupies⟩ => ⟨i, r, found, occupies, owner ▸ named⟩⟩

theorem QueueLaw.occupiedBy_eq_false {s : State} (law : QueueLaw s) {u : UnitId} {test : AgentId → Bool}
    (clear : ∀ a, test a = true → ¬ Occupies s a u) : s.occupiedBy u test = false := by
  rw [← Bool.not_eq_true, law.occupiedBy_iff_occupies]
  exact fun ⟨a, named, occupies⟩ => clear a named occupies

/-! ### SET_BAND (R156) -/

theorem State.poolsOf_eq (s : State) (low high : Nat) : s.poolsOf (unitsFrom low high) =
    allPools.filter fun p => allUnits.any fun u =>
      decide (low ≤ u.val ∧ u.val < high ∧ (s.unit u).config.pool = some p) := by
  refine List.filter_congr fun p _ => ?_
  rw [unitsFrom, List.any_filter, Bool.eq_iff_iff, List.any_eq_true, List.any_eq_true]
  simp [and_assoc]

section SetBand

variable {aid : AgentId} {s : State} {c : Nat}

theorem setBand_badArgument (sup : Supervises aid s) (thawed : s.frozen = false)
    (asked : bitField s.control.arg0 0 8 = c) (high : 64 < c) :
    RefusesControl (.setBand aid) s 0x23 Reason.badArgument 0 := by
  rw [RefusesControl, exec_setBand, execSetBand, atControlStation_supervises sup]
  simp [thawed, asked, high]

theorem exec_setBand_range (sup : Supervises aid s) (thawed : s.frozen = false)
    (asked : bitField s.control.arg0 0 8 = c) (range : c ≤ 64) :
    exec (.setBand aid) s = .next ((s.takenControl 0x23).setCeiling c) := by
  rw [exec_setBand, execSetBand, atControlStation_supervises sup]
  simp [thawed, asked, Nat.not_lt.mpr range]

/-- A ceiling that is not lower: the units that leave the band are passed, and then their pools. -/
theorem State.setCeiling_of_le (s : State) (rises : s.ceiling ≤ c) : s.setCeiling c =
    (((({ s with ceiling := c } : State).unitPasses
      (allUnits.filter fun u => decide (s.ceiling ≤ u.val ∧ u.val < c))).poolPasses
      (allPools.filter fun p => allUnits.any fun u =>
        decide (s.ceiling ≤ u.val ∧ u.val < c ∧ (s.unit u).config.pool = some p))).answerControl
      (.ok (place 0 7 c) 0)) := by
  rw [State.setCeiling, if_pos rises]
  dsimp only
  rw [State.poolsOf_eq]
  rfl

/-- The ceiling in force again: no unit leaves the band. -/
theorem State.setCeiling_same (s : State) : s.setCeiling s.ceiling = s.answerControl (.ok (place 0 7 s.ceiling) 0) := by
  have noUnits : unitsFrom s.ceiling s.ceiling = [] :=
    List.eq_nil_iff_forall_not_mem.mpr fun u mem => by have := mem_unitsFrom.mp mem; omega
  rw [State.setCeiling, if_pos (Nat.le_refl _)]
  simp [noUnits, State.poolsOf, State.unitPasses, State.poolPasses]

theorem State.setCeiling_occupied (queues : QueueLaw s) {u : UnitId} {a : AgentId} (above : c ≤ u.val)
    (below : u.val < s.ceiling) (bare : s.clearance a = false) (occupies : Occupies s a u)
    (lowest : ∀ v b, c ≤ v.val → v < u → s.clearance b = false → ¬ Occupies s b v) :
    s.setCeiling c = s.answerControl (.refuse Reason.bandOccupied u.val) := by
  have found : (unitsFrom c s.ceiling).find? (fun u => s.occupiedBy u fun a => !s.clearance a) = some u :=
    unitsFrom_find?_eq_some above below ((queues.occupiedBy_iff_occupies u _).mpr ⟨a, by simp [bare], occupies⟩)
      fun v low lower => queues.occupiedBy_eq_false fun b named => lowest v b low lower (by simpa using named)
  rw [State.setCeiling, if_neg (by omega), found]

theorem State.setCeiling_clear (queues : QueueLaw s) (lower : c < s.ceiling)
    (clear : ∀ u a, c ≤ u.val → u.val < s.ceiling → s.clearance a = false → ¬ Occupies s a u) :
    s.setCeiling c = ({ s with ceiling := c } : State).answerControl (.ok (place 0 7 c) 0) := by
  have none : (unitsFrom c s.ceiling).find? (fun u => s.occupiedBy u fun a => !s.clearance a) = none :=
    unitsFrom_find?_eq_none fun v low high =>
      queues.occupiedBy_eq_false fun b named => clear v b low high (by simpa using named)
  rw [State.setCeiling, if_neg (by omega), none]

end SetBand

/-- Settles O35: a lemma for each check, and for each direction in which the ceiling moves. -/
theorem setBand : Obligations.SetBand := by
  intro aid s c sup asked
  refine ⟨setBand_frozen sup, fun thawed => ⟨setBand_badArgument sup thawed asked, fun range => ?_⟩⟩
  have run := exec_setBand_range sup thawed asked range
  refine ⟨fun same => ?same, fun rises => ?rises, fun lower queues => ⟨fun u a above below bare occupies lowest => ?occupied,
    fun clear => ?clear⟩⟩
  case same =>
    subst same
    rw [run]
    exact congrArg _ (s.takenControl 0x23).setCeiling_same
  case rises =>
    rw [run]
    exact congrArg _ ((s.takenControl 0x23).setCeiling_of_le (Nat.le_of_lt rises))
  case occupied =>
    rw [RefusesControl, run]
    exact congrArg _ (State.setCeiling_occupied (s := s.takenControl 0x23) queues above below bare occupies lowest)
  case clear =>
    rw [run]
    exact congrArg _ (State.setCeiling_clear (s := s.takenControl 0x23) queues lower clear)

/-! ### SET_CLEARANCE (R157) -/

section SetClearance

variable {aid a : AgentId} {s : State} {yes : Bool}

theorem setClearance_noAgent (sup : Supervises aid s) (thawed : s.frozen = false)
    (high : 15 < bitField s.control.arg0 0 8) : RefusesControl (.setClearance aid) s 0x24 Reason.badArgument 0 := by
  rw [RefusesControl, exec_setClearance, execSetClearance, atControlStation_supervises sup]
  simp [thawed, agentOf_eq_none high]

theorem setClearance_badArgument (sup : Supervises aid s) (thawed : s.frozen = false)
    (named : bitField s.control.arg0 0 8 = a.val) (high : 1 < bitField s.control.arg1 0 2) :
    RefusesControl (.setClearance aid) s 0x24 Reason.badArgument a.val := by
  rw [RefusesControl, exec_setClearance, execSetClearance, atControlStation_supervises sup]
  simp [thawed, agentOf_of_eq_val named, flagOf_eq_none high]

theorem setClearance_supervisor (sup : Supervises aid s) (thawed : s.frozen = false)
    (named : bitField s.control.arg0 0 8 = a.val) (no : bitField s.control.arg1 0 2 = 0) (same : a = s.supervisor) :
    RefusesControl (.setClearance aid) s 0x24 Reason.badArgument a.val := by
  rw [RefusesControl, exec_setClearance, execSetClearance, atControlStation_supervises sup]
  simp [thawed, agentOf_of_eq_val named, no, flagOf, same]

theorem exec_setClearance_value (sup : Supervises aid s) (thawed : s.frozen = false)
    (named : bitField s.control.arg0 0 8 = a.val) (asked : bitField s.control.arg1 0 2 = flagNo yes)
    (allowed : a ≠ s.supervisor ∨ yes = true) :
    exec (.setClearance aid) s = .next ((s.takenControl 0x24).writeClearance a yes) := by
  have taken : ¬ (a = s.supervisor ∧ yes = false) := by
    rintro ⟨same, no⟩
    exact allowed.elim (fun other => other same) fun given => nomatch no.symm.trans given
  rw [exec_setClearance, execSetClearance, atControlStation_supervises sup]
  simp [thawed, agentOf_of_eq_val named, flagOf_of_eq_no asked, taken]

theorem State.writeClearance_same (same : s.clearance a = yes) :
    s.writeClearance a yes = s.answerControl (clearanceAnswer a yes) := by
  rw [State.writeClearance, if_pos same]

theorem State.writeClearance_given (bare : s.clearance a = false) :
    s.writeClearance a true = ((s.setAgent a { s.agent a with clearance := true }).poolPasses
      (allPools.filter fun p => s.waitsIn a (s.pool p).queue)).answerControl (clearanceAnswer a true) := by
  simp [State.writeClearance, bare]

theorem State.writeClearance_occupied (queues : QueueLaw s) (cleared : s.clearance a = true) {u : UnitId}
    (above : s.ceiling ≤ u.val) (occupies : Occupies s a u)
    (lowest : ∀ v : UnitId, s.ceiling ≤ v.val → v < u → ¬ Occupies s a v) :
    s.writeClearance a false = s.answerControl (.refuse Reason.bandOccupied u.val) := by
  have found : (unitsFrom s.ceiling 64).find? (fun u => s.occupiedBy u fun b => b == a) = some u :=
    unitsFrom_find?_eq_some above u.isLt ((queues.occupiedBy_iff_occupies u _).mpr ⟨a, by simp, occupies⟩)
      fun v low lower => queues.occupiedBy_eq_false fun b named => eq_of_beq named ▸ lowest v low lower
  simp [State.writeClearance, cleared, found]

theorem State.writeClearance_clear (queues : QueueLaw s) (cleared : s.clearance a = true)
    (clear : ∀ u : UnitId, s.ceiling ≤ u.val → ¬ Occupies s a u) :
    s.writeClearance a false =
      (s.setAgent a { s.agent a with clearance := false }).answerControl (clearanceAnswer a false) := by
  have none : (unitsFrom s.ceiling 64).find? (fun u => s.occupiedBy u fun b => b == a) = none :=
    unitsFrom_find?_eq_none fun v low _ =>
      queues.occupiedBy_eq_false fun b named => eq_of_beq named ▸ clear v low
  simp [State.writeClearance, cleared, none]

/-- No clearance reads 0 in its field. -/
theorem clearanceAnswer_false (a : AgentId) : clearanceAnswer a false = .ok (place 0 4 a.val) 0 := by
  simp [clearanceAnswer, flagNo, place]

end SetClearance

/-- Settles O36: a lemma for each check, and for each value that is written. -/
theorem setClearance : Obligations.SetClearance := by
  intro aid s sup
  refine ⟨setClearance_frozen sup, fun thawed => ⟨setClearance_noAgent sup thawed, fun a named =>
    ⟨setClearance_badArgument sup thawed named, setClearance_supervisor sup thawed named, fun asked => ?given,
      fun asked other => ?removed⟩⟩⟩
  case given =>
    have run := exec_setClearance_value (yes := true) sup thawed named asked (.inr rfl)
    refine ⟨fun cleared => ?_, fun bare => ?_⟩ <;> rw [run]
    · exact congrArg _ (State.writeClearance_same (s := s.takenControl 0x24) cleared)
    · exact congrArg _ (State.writeClearance_given (s := s.takenControl 0x24) bare)
  case removed =>
    have run := exec_setClearance_value (yes := false) sup thawed named asked (.inl other)
    refine ⟨fun bare => ?_, fun cleared queues => ⟨fun u above occupies lowest => ?_, fun clear => ?_⟩⟩
    · rw [run, State.writeClearance_same (s := s.takenControl 0x24) bare, clearanceAnswer_false]
      rfl
    · rw [RefusesControl, run]
      exact congrArg _ (State.writeClearance_occupied (s := s.takenControl 0x24) queues cleared above occupies lowest)
    · rw [run, State.writeClearance_clear (s := s.takenControl 0x24) queues cleared clear, clearanceAnswer_false]
      rfl

end Sys2Proof.Machine
end

section
/-! SUPPORT. Recall and drain (spec/09 R158 to R162): what a recall makes of a record, which waiters a drain withdraws,
and the statements on RECALL_LEASE, RECALL_UNIT, DRAIN_UNIT and DRAIN_COMPLETION. -/

namespace Sys2Proof.Machine

/-! ### The recall of one record (R158) -/

section Recall

variable {s : State} {i : SlotId} {r : Record} {u : UnitId} {depth : Nat} {c : Option Nat}

theorem State.recall_of_noGrace (found : s.record i = some r) (holds : r.standing = .held u depth c)
    (grace : (s.unit u).config.grace = 0) : s.recall i = s.spend i .revoked := by
  simp only [State.recall, found, holds, if_pos grace]

theorem State.recall_of_unmarked (found : s.record i = some r) (holds : r.standing = .held u depth c)
    (grace : (s.unit u).config.grace ≠ 0) (other : (s.unit u).mark ≠ some i) :
    s.recall i =
      (s.loadRecord i (some { r with standing := .recalled u depth (s.unit u).config.grace })).post .recalled i := by
  simp only [State.recall, found, holds, if_neg grace, if_neg other, State.markRecalled, State.clearMarkOf_of_ne other]

theorem State.recall_of_marked (found : s.record i = some r) (holds : r.standing = .held u depth c)
    (grace : (s.unit u).config.grace ≠ 0) (marked : (s.unit u).mark = some i) :
    s.recall i = (((s.setUnit u { s.unit u with mark := none }).loadRecord i
      (some { r with standing := .recalled u depth (s.unit u).config.grace })).post .recalled i).unitPass none u := by
  simp only [State.recall, found, holds, if_neg grace, if_pos marked, State.markRecalled, State.clearMarkOf,
    State.clearMark]

theorem State.recall_of_not_held (found : s.record i = some r) (away : ∀ u depth c, r.standing ≠ .held u depth c) :
    s.recall i = s := by
  simp only [State.recall, found]
  split
  · next u depth c holds => exact absurd holds (away u depth c)
  all_goals rfl

end Recall

/-! ### RECALL_LEASE and RECALL_UNIT (R159, R160) -/

section RecallCommands

variable {aid : AgentId} {s : State} {i : SlotId} {r : Record} {u : UnitId}

theorem recallLease_badArgument (sup : Supervises aid s) (high : 95 < bitField s.control.arg0 0 8) :
    RefusesControl (.recallLease aid) s 0x2A Reason.badArgument 0 := by
  rw [RefusesControl, exec_recallLease, execRecallLease, atControlStation_supervises sup]
  simp [slotOf_eq_none high]

theorem recallLease_free (sup : Supervises aid s) (named : bitField s.control.arg0 0 8 = i.val)
    (free : s.record i = none) : RefusesControl (.recallLease aid) s 0x2A Reason.notHolder 0 := by
  rw [RefusesControl, exec_recallLease, execRecallLease, atControlStation_supervises sup]
  simp [slotOf_of_eq_val named, free]

theorem exec_recallLease_record (sup : Supervises aid s) (named : bitField s.control.arg0 0 8 = i.val)
    (found : s.record i = some r) :
    exec (.recallLease aid) s = .next ((s.takenControl 0x2A).recallRecord i r) := by
  rw [exec_recallLease, execRecallLease, atControlStation_supervises sup]
  simp [slotOf_of_eq_val named, found]

theorem State.recallRecord_of_waiting (waits : r.isWaiting = true) :
    s.recallRecord i r = s.answerControl (.refuse Reason.notHolder r.target.number) := by
  obtain ⟨x, d, c, standing⟩ := Record.isWaiting_iff.mp waits
  simp only [State.recallRecord, standing]

theorem State.recallRecord_of_spent (spent : r.isSpent = true) :
    s.recallRecord i r = s.answerControl (.refuse Reason.notHolder r.target.number) := by
  unfold Record.isSpent at spent
  split at spent
  · next standing => simp only [State.recallRecord, standing]
  all_goals cases spent

theorem State.recallRecord_of_recalled {depth g : Nat} (recalled : r.standing = .recalled u depth g) :
    s.recallRecord i r =
      s.answerControl (.ok (recordWordWithAgent (s.handle i) (.unit u) r.agent) (place 0 3 3)) := by
  simp only [State.recallRecord, recalled, Record.target_of_recalled recalled, Standing.stateNo]

theorem State.recallRecord_of_held {depth : Nat} {c : Option Nat} (holds : r.standing = .held u depth c) :
    s.recallRecord i r = (s.recall i).answerControl
      (.ok (recordWordWithAgent (s.handle i) (.unit u) r.agent) (place 0 3 ((s.recall i).slotStateNo i))) := by
  simp only [State.recallRecord, holds, Record.target_of_held holds]

theorem recallUnit_noUnit (sup : Supervises aid s) (high : 63 < bitField s.control.arg0 0 8) :
    RefusesControl (.recallUnit aid) s 0x2B Reason.noUnit 0 := by
  rw [RefusesControl, exec_recallUnit, execRecallUnit, atControlStation_supervises sup]
  simp [unitOf_eq_none high]

theorem recallUnit_taken (sup : Supervises aid s) (named : bitField s.control.arg0 0 8 = u.val) {list : List SlotId}
    (listed : list = s.heldOn u) {p : State} (recalled : p = (s.takenControl 0x2B).recallAll list) :
    exec (.recallUnit aid) s = .next (p.answerControl
      (.ok (place 0 3 (p.countRecalled list) ||| place 8 3 (list.length - p.countRecalled list)) 0)) := by
  rw [exec_recallUnit, execRecallUnit, atControlStation_supervises sup, recalled, listed]
  simp [unitOf_of_eq_val named]

end RecallCommands

/-- Settles O37: the record's state, and for a HELD one the unit's grace and mark, decide. -/
theorem recallHolds : Obligations.Recall := by
  refine ⟨fun s i r found => ⟨fun u depth c holds => ⟨State.recall_of_noGrace found holds, fun grace =>
      ⟨State.recall_of_unmarked found holds (Nat.pos_iff_ne_zero.mp grace),
        State.recall_of_marked found holds (Nat.pos_iff_ne_zero.mp grace)⟩⟩, State.recall_of_not_held found⟩,
    fun aid s sup => ⟨recallLease_badArgument sup, fun i named => ⟨recallLease_free sup named, fun r found => ?lease⟩,
      recallUnit_noUnit sup, fun u list p named listed recalled => recallUnit_taken sup named listed recalled⟩⟩
  case lease =>
    have run := exec_recallLease_record sup named found
    refine ⟨fun away => ?_, fun u depth g standing => ?_, fun u depth c p holds recalled => ?_⟩
    · rw [RefusesControl, run]
      exact congrArg _ (away.elim State.recallRecord_of_waiting State.recallRecord_of_spent)
    · rw [run]
      exact congrArg _ (State.recallRecord_of_recalled standing)
    · rw [run, State.recallRecord_of_held holds, recalled]
      rfl

/-! ### The waiters that a drain withdraws (R161) -/

/-- A pass on a unit out of service does nothing, so a waiter of such a unit is spent alone. -/
theorem State.spend_record_of_ne {s : State} {u : UnitId} (closed : (s.unit u).state ≠ .opened) {i j : SlotId}
    {a : AgentId} (waits : s.wait i = some (a, .unit u)) (cause : SpentCause) (apart : j ≠ i) :
    (s.spend i cause).record j = s.record j := by
  obtain ⟨r, found, _, d, c, standing⟩ := State.wait_eq_some.mp waits
  have passed (p : State) (same : (p.unit u).state = (s.unit u).state) : p.afterDeparture r = p := by
    simp only [State.afterDeparture, standing]
    exact State.unitPass_of_ne_opened (same ▸ closed) none
  simp only [State.spend, State.retire, found]
  split
  · rw [passed _ (by rw [State.markSpent_unit, State.leavePlace_unit]), State.markSpent_record, if_neg apart]
  · rw [passed _ (by rw [State.remove_unit, State.leavePlace_unit]), State.remove_record, if_neg apart]

/-- Each waiter of a unit out of service still waits when its turn comes. -/
theorem State.withdrawAll_eq_spend {s : State} {u : UnitId} (idle : Idle u s) {is : List SlotId} (once : is.Nodup)
    (waits : ∀ i, i ∈ is → ∃ a, s.wait i = some (a, .unit u)) :
    s.withdrawAll is = is.foldl (fun s i => s.spend i .withdrawn) s := by
  induction is generalizing s with
  | nil => rfl
  | cons i is ih =>
    obtain ⟨fresh, once⟩ := List.nodup_cons.mp once
    obtain ⟨a, waitsI⟩ := waits i (.head is)
    have head : s.withdraw i = s.spend i .withdrawn := by
      obtain ⟨r, found, standing⟩ := Option.bind_eq_some_iff.mp waitsI
      rw [State.withdraw, found, Option.any_some, if_pos (Record.waits_of_wait standing).1]
    refine (congrArg (fun p => State.withdrawAll p is) head).trans
      (ih (idle.spend i .withdrawn) once fun j mem => ?_)
    obtain ⟨b, waitsJ⟩ := waits j (.tail i mem)
    exact ⟨b, (State.wait_congr (State.spend_record_of_ne idle.closed waitsI _ fun same => fresh (same ▸ mem))).trans
      waitsJ⟩

/-! ### DRAIN_UNIT and DRAIN_COMPLETION (R161, R162) -/

section Drain

variable {aid : AgentId} {s : State} {u : UnitId}

theorem drainUnit_noUnit (sup : Supervises aid s) (high : 63 < bitField s.control.arg0 0 8) :
    RefusesControl (.drainUnit aid) s 0x28 Reason.noUnit 0 := by
  rw [RefusesControl, exec_drainUnit, execDrainUnit, atControlStation_supervises sup]
  simp [unitOf_eq_none high]

theorem drainUnit_unitState (sup : Supervises aid s) (named : bitField s.control.arg0 0 8 = u.val)
    (closed : (s.unit u).state ≠ .opened) : RefusesControl (.drainUnit aid) s 0x28 Reason.unitState u.val := by
  rw [RefusesControl, exec_drainUnit, execDrainUnit, atControlStation_supervises sup]
  simp [unitOf_of_eq_val named, closed]

theorem exec_drainUnit_opened (sup : Supervises aid s) (named : bitField s.control.arg0 0 8 = u.val)
    (opened : (s.unit u).state = .opened) : exec (.drainUnit aid) s = .next ((s.takenControl 0x28).drain u) := by
  rw [exec_drainUnit, execDrainUnit, atControlStation_supervises sup]
  simp [unitOf_of_eq_val named, opened]

/-- The whole drain, with the list of HELD records that is read after the withdrawals. -/
theorem State.drain_of_emptied {a b t : State} {list : List SlotId}
    (begun : a = s.setUnit u { s.unit u with state := .draining, mark := none })
    (withdrawn : b = a.withdrawAll (s.unit u).queue) (listed : list = b.heldOn u)
    (emptied : t = (b.recallAll list).completeDrain u) :
    s.drain u = t.answerControl
      (.ok (place 0 5 (s.unit u).queue.length ||| place 8 3 (t.countRecalled list) |||
        place 16 3 (list.length - t.countRecalled list) ||| place 24 2 (t.unit u).state.no) 0) := by
  subst emptied listed withdrawn begun
  rfl

end Drain

/-- Settles O38: what the drain leaves of its unit is the law of units out of service. -/
theorem drain : Obligations.Drain := by
  refine ⟨fun aid s sup => ⟨drainUnit_noUnit sup, fun u named => ⟨drainUnit_unitState sup named, fun opened =>
      fun a b t list queues begun withdrawn listed emptied => ?drained⟩⟩,
    fun u s running => ⟨fun draining free => ?completed, fun others => ?idle⟩⟩
  case drained =>
    have idle : Idle u a := begun ▸ (s.takenControl 0x28).startDrain_idle u
    have queuesA : QueueLaw a := begun ▸
      ((Primitive.startDrain (s.takenControl 0x28) u opened).keeps_queueLaw queues : QueueLaw _)
    have same : (a.unit u).queue = (s.unit u).queue := by rw [begun, State.unit_setUnit_self]
    obtain ⟨once, member, _⟩ := (queueOf_iff a (.unit u) (a.unit u).queue).mp (queuesA.1 u)
    rw [same] at once member
    have walked : b = a.withdrawAll (s.unit u).queue :=
      withdrawn.trans (State.withdrawAll_eq_spend idle once fun i => (member i).mp).symm
    have served : Serviced t u := by
      have law := State.emptied_serviced queuesA idle (by rw [begun, State.unit_setUnit_self])
      rw [same] at law
      rw [emptied, listed, walked]
      exact law
    have closed : (t.unit u).state ≠ .opened := by
      have after := (idle.emptied (s.unit u).queue).closed
      rw [emptied, listed, walked]
      exact after
    refine ⟨?_, served.queue closed, served.mark closed, served.held closed⟩
    rw [exec_drainUnit_opened sup named opened]
    exact congrArg _ (State.drain_of_emptied (s := s.takenControl 0x28) begun walked listed emptied)
  case completed =>
    rw [exec_drainCompletion, execDrainCompletion, asEvent_running running]
    exact congrArg _ (if_pos ⟨draining, List.isEmpty_iff.mpr free⟩)
  case idle =>
    rw [exec_drainCompletion, execDrainCompletion, asEvent_running running]
    refine congrArg _ (if_neg ?_)
    rintro ⟨draining, free⟩
    exact others.elim (fun steady => steady draining) fun held => held (List.isEmpty_iff.mp free)

end Sys2Proof.Machine
end

section
/-! SUPPORT. Lease time (spec/06): SET_TICK, the edges of CLK and the arrivals of ticks, and the statements on them. -/

namespace Sys2Proof.Machine

/-! ### SET_TICK (R110) -/

section SetTick

variable {aid : AgentId} {s : State}

theorem place_whole (w : Word) : place 0 32 w.toNat = w := by
  simp [place, Nat.mod_eq_of_lt w.isLt]

theorem tickSetupOf_outOfRange {st : Station}
    (out : 2 < bitField st.arg0 0 2 ∨ st.arg1.toNat < 16 ∨ 65536 < st.arg1.toNat) : tickSetupOf st = none := by
  rcases out with high | out
  · simp [tickSetupOf, sourceOf_eq_none high]
  · have outside : ¬ (16 ≤ st.arg1.toNat ∧ st.arg1.toNat ≤ 65536) := by omega
    cases sourceOf (bitField st.arg0 0 2) <;> simp [tickSetupOf, outside]

theorem tickSetupOf_of_spelled {st : Station} {source : TickSource} (named : bitField st.arg0 0 2 = source.no)
    (low : 16 ≤ st.arg1.toNat) (high : st.arg1.toNat ≤ 65536) : tickSetupOf st = some (source, st.arg1.toNat) := by
  simp [tickSetupOf, sourceOf_of_eq_no named, low, high]

theorem setTick_badArgument (sup : Supervises aid s) (thawed : s.frozen = false)
    (out : 2 < bitField s.control.arg0 0 2 ∨ s.control.arg1.toNat < 16 ∨ 65536 < s.control.arg1.toNat) :
    RefusesControl (.setTick aid) s 0x26 Reason.badArgument 0 := by
  rw [RefusesControl, exec_setTick, execSetTick, atControlStation_supervises sup]
  simp [thawed, tickSetupOf_outOfRange out]

theorem setTick_written (sup : Supervises aid s) (thawed : s.frozen = false) {source : TickSource}
    (named : bitField s.control.arg0 0 2 = source.no) (low : 16 ≤ s.control.arg1.toNat)
    (high : s.control.arg1.toNat ≤ 65536) :
    exec (.setTick aid) s = .next ((s.repliedControl 0x26 (.ok (place 0 2 source.no) s.control.arg1)).setTimer
      { s.timer with source := source, divider := s.control.arg1.toNat, count := 0, reference := none }) := by
  rw [exec_setTick, execSetTick, atControlStation_supervises sup]
  simp [thawed, tickSetupOf_of_spelled named low high, place_whole]

end SetTick

/-! ### The edges of CLK (R107 to R109) -/

section Edges

variable {s : State} {b : Bool}

theorem State.clockEdge_of_off (off : s.timer.source = .off) : s.clockEdge b = s := by
  simp only [State.clockEdge, off]

theorem State.clockEdge_of_below (internal : s.timer.source = .internal)
    (below : s.timer.count + 1 < s.timer.divider) :
    s.clockEdge b = s.setTimer { s.timer with count := s.timer.count + 1 } := by
  simp only [State.clockEdge, internal, if_neg (Nat.not_le.mpr below)]

theorem State.clockEdge_of_full (internal : s.timer.source = .internal)
    (full : s.timer.divider ≤ s.timer.count + 1) :
    s.clockEdge b = s.setTimer { s.timer with count := 0, inFlight := s.timer.inFlight ++ s.reached } := by
  simp only [State.clockEdge, internal, if_pos full]
  rfl

theorem State.clockEdge_of_rise (pin : s.timer.source = .pin) (low : s.timer.reference = some false) :
    s.clockEdge true =
      s.setTimer { s.timer with reference := some true, inFlight := s.timer.inFlight ++ s.reached } := by
  simp only [State.clockEdge, pin, low, and_self, if_true]
  rfl

theorem State.clockEdge_of_level (pin : s.timer.source = .pin) (level : b = false ∨ s.timer.reference ≠ some false) :
    s.clockEdge b = s.setTimer { s.timer with reference := some b } := by
  have noTick : ¬ (b = true ∧ s.timer.reference = some false) := by
    rintro ⟨high, low⟩
    exact level.elim (fun no => nomatch no.symm.trans high) fun other => other low
  simp only [State.clockEdge, pin, if_neg noTick]

theorem exec_clkRisingEdge_running (running : s.inReset = false) (b : Bool) :
    exec (.clkRisingEdge b) s = .next (s.quiet.clockEdge b) := by
  rw [exec_clkRisingEdge, execClkRisingEdge, asEvent_running running]

theorem exec_tick_due (running : s.inReset = false) (due : s.tickDue = true) :
    exec .tick s = .next (s.quiet.clockEdge true) := by
  rw [exec_tick, execTick, asEvent_running running]
  exact congrArg _ (if_pos due)

theorem exec_tick_idle (running : s.inReset = false) (idle : s.tickDue = false) : exec .tick s = .next s.quiet := by
  rw [exec_tick, execTick, asEvent_running running]
  exact congrArg _ (if_neg (ne_true_of_eq_false idle))

end Edges

/-- Settles O41: the source decides what an edge does, and whether the row TICK is one. -/
theorem tickSetupAndTicks : Obligations.TickSetupAndTicks := by
  refine ⟨fun aid s sup => ⟨setTick_frozen sup, fun thawed => ⟨setTick_badArgument sup thawed,
      fun source named low high => setTick_written sup thawed named low high⟩⟩,
    fun s running reached taken => ⟨fun off => ?off, fun internal => ⟨fun below => ?below, fun full c edge => ?full⟩,
      fun pin => ⟨fun low c edge => ?rise, fun level => ?level, ?falls⟩⟩⟩
  case off =>
    refine ⟨fun b => ?_, exec_tick_idle running (by simp only [State.tickDue, off])⟩
    rw [exec_clkRisingEdge_running running]
    exact congrArg _ (State.clockEdge_of_off (s := s.quiet) off)
  case below =>
    refine ⟨fun b => ?_, exec_tick_idle running (by simp [State.tickDue, internal, below])⟩
    rw [exec_clkRisingEdge_running running]
    exact congrArg _ (State.clockEdge_of_below (s := s.quiet) internal below)
  case full =>
    rw [taken]
    have due : s.tickDue = true := by simp [State.tickDue, internal, full]
    rcases edge with rfl | ⟨b, rfl⟩
    · rw [exec_tick_due running due]
      exact congrArg _ (State.clockEdge_of_full (s := s.quiet) internal full)
    · rw [exec_clkRisingEdge_running running]
      exact congrArg _ (State.clockEdge_of_full (s := s.quiet) internal full)
  case rise =>
    rw [taken]
    have due : s.tickDue = true := by simp [State.tickDue, pin, low]
    rcases edge with rfl | rfl
    · rw [exec_tick_due running due]
      exact congrArg _ (State.clockEdge_of_rise (s := s.quiet) pin low)
    · rw [exec_clkRisingEdge_running running]
      exact congrArg _ (State.clockEdge_of_rise (s := s.quiet) pin low)
  case level =>
    refine ⟨?_, exec_tick_idle running (by simp [State.tickDue, pin, level])⟩
    rw [exec_clkRisingEdge_running running]
    exact congrArg _ (State.clockEdge_of_level (s := s.quiet) pin (.inr level))
  case falls =>
    rw [exec_clkRisingEdge_running running]
    exact congrArg _ (State.clockEdge_of_level (s := s.quiet) pin (.inl rfl))

/-! ### The oldest arrival for a slot (R111) -/

section Arrivals

variable {i : SlotId} {before rest : List Arrival} {a : Arrival}

theorem dropArrival_append (here : a.slot = i) (earlier : ∀ b, b ∈ before → b.slot ≠ i) :
    dropArrival i (before ++ a :: rest) = before ++ rest := by
  induction before with
  | nil => exact if_pos here
  | cons b before ih =>
    refine (if_neg (earlier b (.head before))).trans (congrArg (b :: ·) ?_)
    exact ih fun x mem => earlier x (.tail b mem)

variable {s : State}

theorem State.nextArrival_eq_some (flight : s.timer.inFlight = before ++ a :: rest) (here : a.slot = i)
    (earlier : ∀ b, b ∈ before → b.slot ≠ i) : s.nextArrival i = some a :=
  List.find?_eq_some_iff_append.mpr ⟨by simp [here], before, rest, flight, fun b mem => by simp [earlier b mem]⟩

theorem State.nextArrival_eq_none (away : ∀ a, a ∈ s.timer.inFlight → a.slot ≠ i) : s.nextArrival i = none :=
  List.find?_eq_none.mpr fun a mem => by simp [away a mem]

/-! ### The countdown of one record (R111, R113 to R115) -/

variable {r : Record} {n : Nat} {cause : SpentCause}

theorem State.lowerCountdown_of_last (found : s.record i = some r) (present : r.standing.countdown = some n)
    (ends : r.standing.expiry = some cause) (last : n ≤ 1) : s.lowerCountdown i = s.spend i cause := by
  simp only [State.lowerCountdown, found, present, ends, if_pos last]

theorem State.lowerCountdown_of_more (found : s.record i = some r) (present : r.standing.countdown = some n)
    (ends : r.standing.expiry = some cause) (more : 2 ≤ n) :
    s.lowerCountdown i = s.writeRecord i (some { r with standing := r.standing.lowered (n - 1) }) := by
  simp only [State.lowerCountdown, found, present, ends, if_neg (Nat.not_le.mpr more)]

theorem State.expiryDue_of_idle (idle : s.nextArrival i = none) : s.expiryDue i cause = false := by
  simp [State.expiryDue, idle]

theorem State.expiryDue_of_stale (next : s.nextArrival i = some a) (stale : a.stale = true) :
    s.expiryDue i cause = false := by
  simp [State.expiryDue, next, stale]

theorem State.expiryDue_of_last (next : s.nextArrival i = some a) (live : a.stale = false)
    (found : s.record i = some r) (present : r.standing.countdown = some n) (ends : r.standing.expiry = some cause)
    (last : n ≤ 1) : s.expiryDue i cause = true := by
  simp [State.expiryDue, next, live, found, present, ends, last]

/-- An expiry is due only at a record with that expiry and a countdown of at most 1. -/
theorem State.expiryDue_eq_false (more : ∀ r n, s.record i = some r → r.standing.expiry = some cause →
    r.standing.countdown = some n → 2 ≤ n) : s.expiryDue i cause = false := by
  cases found : s.record i with
  | none => simp [State.expiryDue, found]
  | some r =>
    have far : (r.standing.expiry == some cause && r.standing.countdown.any fun c => decide (c ≤ 1)) = false := by
      rw [← Bool.not_eq_true, Bool.and_eq_true, Option.any_eq_true]
      rintro ⟨ends, n, present, last⟩
      have high := more r n found (eq_of_beq ends) present
      have low := of_decide_eq_true last
      omega
    simp [State.expiryDue, found, far]

/-! ### The rows -/

/-- The three rows of an expiry, each with its cause. -/
def expiryRows (i : SlotId) : List (Instr × SpentCause) :=
  [(.leaseExpiry i, .expired), (.waitTimeout i, .timedOut), (.graceExpiry i, .revoked)]

theorem exec_tickArrival_running (running : s.inReset = false) (i : SlotId) :
    exec (.tickArrival i) s = .next (s.quiet.arrive i) := by
  rw [exec_tickArrival, execTickArrival, asEvent_running running]

theorem exec_expiryRow {c : Instr} (row : (c, cause) ∈ expiryRows i) (running : s.inReset = false) :
    exec c s = .next (if s.expiryDue i cause then s.quiet.arrive i else s.quiet) := by
  simp only [expiryRows, List.mem_cons, Prod.mk.injEq, List.not_mem_nil, or_false] at row
  rcases row with ⟨rfl, rfl⟩ | ⟨rfl, rfl⟩ | ⟨rfl, rfl⟩
  · rw [exec_leaseExpiry, execLeaseExpiry, asEvent_running running]; rfl
  · rw [exec_waitTimeout, execWaitTimeout, asEvent_running running]; rfl
  · rw [exec_graceExpiry, execGraceExpiry, asEvent_running running]; rfl

theorem exec_expiryRow_idle {c : Instr} (row : (c, cause) ∈ expiryRows i) (running : s.inReset = false)
    (idle : s.expiryDue i cause = false) : exec c s = .next s.quiet := by
  rw [exec_expiryRow row running, idle, if_neg Bool.false_ne_true]

/-- Each of the three instructions is one of the rows. -/
theorem mem_expiryRows {c : Instr} (row : c ∈ [Instr.leaseExpiry i, .waitTimeout i, .graceExpiry i]) :
    ∃ cause, (c, cause) ∈ expiryRows i := by
  simp only [List.mem_cons, List.not_mem_nil, or_false] at row
  rcases row with rfl | rfl | rfl
  · exact ⟨.expired, by simp [expiryRows]⟩
  · exact ⟨.timedOut, by simp [expiryRows]⟩
  · exact ⟨.revoked, by simp [expiryRows]⟩

/-- What a live arrival does to a record whose countdown is present. -/
theorem exec_arrival_live {p : State} {c : Instr} (running : s.inReset = false)
    (flight : s.timer.inFlight = before ++ a :: rest) (here : a.slot = i) (earlier : ∀ b, b ∈ before → b.slot ≠ i)
    (arrived : p = s.quiet.setTimer { s.timer with inFlight := before ++ rest }) (live : a.stale = false)
    (found : s.record i = some r) (present : r.standing.countdown = some n) (ends : r.standing.expiry = some cause)
    (row : (c, cause) ∈ expiryRows i) :
    (2 ≤ n → exec (.tickArrival i) s =
      .next (p.writeRecord i (some { r with standing := r.standing.lowered (n - 1) }))) ∧
    (n ≤ 1 → exec (.tickArrival i) s = .next (p.spend i cause) ∧ exec c s = .next (p.spend i cause)) := by
  have next := State.nextArrival_eq_some flight here earlier
  have made : s.quiet.arrived i = p := by
    rw [arrived, State.arrived]
    exact congrArg (fun l => s.quiet.setTimer { s.timer with inFlight := l })
      ((congrArg (dropArrival i) flight).trans (dropArrival_append here earlier))
  have reaches : s.quiet.arrive i = p.lowerCountdown i := by
    have unfolded : s.quiet.arrive i = if a.stale then s.quiet.arrived i else (s.quiet.arrived i).lowerCountdown i := by
      have next : s.quiet.nextArrival i = some a := next
      simp only [State.arrive, next]
    rw [unfolded, live, if_neg Bool.false_ne_true, made]
  have standing : p.record i = some r := by rw [arrived]; exact found
  refine ⟨fun more => ?_, fun last => ⟨?_, ?_⟩⟩
  · rw [exec_tickArrival_running running, reaches, State.lowerCountdown_of_more standing present ends more]
  · rw [exec_tickArrival_running running, reaches, State.lowerCountdown_of_last standing present ends last]
  · rw [exec_expiryRow row running, State.expiryDue_of_last next live found present ends last, if_pos rfl, reaches,
      State.lowerCountdown_of_last standing present ends last]

end Arrivals

/-- Settles O42: an expiry row is the arrival that ends its record, and does nothing where that arrival is not due. -/
theorem tickArrivals : Obligations.TickArrivals := by
  intro s i running
  refine ⟨fun away c row => ?none, fun more => ?lease, fun more => ?wait, fun more => ?grace,
    fun before a rest p flight here earlier arrived => ⟨fun stale => ?stale, fun live r found => ?live⟩⟩
  case none =>
    have idle := State.nextArrival_eq_none away
    rcases List.mem_cons.mp row with rfl | row
    · rw [exec_tickArrival_running running]
      have idle : s.quiet.nextArrival i = none := idle
      simp only [State.arrive, idle]
    · obtain ⟨cause, row⟩ := mem_expiryRows row
      exact exec_expiryRow_idle row running (State.expiryDue_of_idle idle)
  case lease =>
    refine exec_expiryRow_idle (i := i) (c := .leaseExpiry i) (cause := .expired) (by simp [expiryRows]) running
      (State.expiryDue_eq_false fun r n found ends present => ?_)
    cases standing : r.standing <;> rw [standing] at ends present <;> cases ends
    exact more r _ _ n found (standing.trans (congrArg _ present))
  case wait =>
    refine exec_expiryRow_idle (i := i) (c := .waitTimeout i) (cause := .timedOut) (by simp [expiryRows]) running
      (State.expiryDue_eq_false fun r n found ends present => ?_)
    cases standing : r.standing <;> rw [standing] at ends present <;> cases ends
    exact more r _ _ n found (standing.trans (congrArg _ present))
  case grace =>
    refine exec_expiryRow_idle (i := i) (c := .graceExpiry i) (cause := .revoked) (by simp [expiryRows]) running
      (State.expiryDue_eq_false fun r n found ends present => ?_)
    cases standing : r.standing <;> rw [standing] at ends present <;> cases ends
    cases present
    exact more r _ _ n found standing
  case stale =>
    have next := State.nextArrival_eq_some flight here earlier
    refine ⟨?_, fun c row => ?_⟩
    · have next : s.quiet.nextArrival i = some a := next
      rw [exec_tickArrival_running running, arrived]
      simp only [State.arrive, next, stale, if_true]
      exact congrArg (fun l => Host.Outcome.next (s.quiet.setTimer { s.timer with inFlight := l }))
        ((congrArg (dropArrival i) flight).trans (dropArrival_append here earlier))
    · obtain ⟨cause, row⟩ := mem_expiryRows row
      exact exec_expiryRow_idle row running (State.expiryDue_of_stale next stale)
  case live =>
    refine ⟨fun t d n standing => ?_, fun u d n standing => ?_, fun u d n standing => ?_⟩
    · have arrives := exec_arrival_live (n := n) (cause := .timedOut) (c := .waitTimeout i) running flight here earlier
        arrived live found (by rw [standing]; rfl) (by rw [standing]; rfl) (by simp [expiryRows])
      rwa [standing] at arrives
    · have arrives := exec_arrival_live (n := n) (cause := .expired) (c := .leaseExpiry i) running flight here earlier
        arrived live found (by rw [standing]; rfl) (by rw [standing]; rfl) (by simp [expiryRows])
      rwa [standing] at arrives
    · have arrives := exec_arrival_live (n := n) (cause := .revoked) (c := .graceExpiry i) running flight here earlier
        arrived live found (by rw [standing]; rfl) (by rw [standing]; rfl) (by simp [expiryRows])
      rwa [standing] at arrives

end Sys2Proof.Machine
end

section
/-! SUPPORT. RELEASE and DOWNGRADE (spec/05), QUERY_LEASE and INSPECT_RECORD (spec/02), NEXT_NOTICE, SET_ATTENTION and the
posting of notices (spec/07), and the statements on them. -/

namespace Sys2Proof.Machine

/-! ### RELEASE (R90 to R93) -/

section Named

variable {aid : AgentId} {s : State} {i : SlotId} {r : Record}

theorem exec_release_names (ready : Ready aid s) (attached : s.isAttached aid = true) (names : Names s aid i r) :
    exec (.release aid) s = .next ((s.taken aid 0x05).releaseRecord aid i r) :=
  withHandle_names 0x05 ready attached names fun s => s.releaseRecord aid

theorem exec_downgrade_names (ready : Ready aid s) (attached : s.isAttached aid = true) (names : Names s aid i r) :
    exec (.downgrade aid) s = .next ((s.taken aid 0x08).downgradeRecord aid i r) :=
  withHandle_names 0x08 ready attached names fun s => s.downgradeRecord aid

theorem exec_queryLease_names (ready : Ready aid s) (attached : s.isAttached aid = true) (names : Names s aid i r) :
    exec (.queryLease aid) s =
      .next ((s.taken aid 0x0A).answer aid (.ok r.target.word ((s.taken aid 0x0A).statusWord i r))) :=
  withHandle_names 0x0A ready attached names fun s i r => s.answer aid (.ok r.target.word (s.statusWord i r))

end Named

/-- FULL reads as a flag. -/
theorem flagOf_of_le {n : Nat} (range : n ≤ 1) : flagOf n = some (decide (n = 1)) := by
  have one : n = 0 ∨ n = 1 := by omega
  rcases one with rfl | rfl <;> rfl

/-- Settles O27: FULL, the record's state and its depth decide. -/
theorem release : Obligations.Release := by
  intro aid s i r ready attached names
  have run := exec_release_names ready attached names
  unfold State.releaseRecord at run
  rw [State.taken_station_arg1] at run
  refine ⟨fun high => ?tooLarge, fun range => ?_⟩
  case tooLarge =>
    rw [flagOf_eq_none high, State.taken_answer] at run
    exact run
  rw [flagOf_of_le range] at run
  refine ⟨fun t d c waits => ?waiting, fun u depth c holds => ⟨fun deep whole => ?lowered, fun last => ?retired⟩,
    fun u depth g recalled => ?recalled, fun k cause spent => ?spent⟩
  case waiting =>
    simp only [waits] at run
    rw [Refuses, run, State.taken_refuseNotHolder waits]
  case lowered =>
    have more : depth - 1 ≠ 0 := by omega
    simpa [holds, whole, more, Record.target_of_held holds] using run
  case retired =>
    have nothing : (if (decide (bitField (s.station aid).arg1 0 2 = 1)) = true then 0 else depth - 1) = 0 := by
      split
      · rfl
      · next less => exact last.elim (fun low => by omega) fun full => absurd (decide_eq_true full) less
    simp only [holds, Record.target_of_held holds, if_pos nothing] at run
    exact run
  case recalled =>
    simp only [recalled, Record.target_of_recalled recalled] at run
    exact run
  case spent =>
    simp only [spent, Record.lapsedAnswer_of_spent spent] at run
    exact run

/-! ### DOWNGRADE (R105) -/

/-- Settles O30: the record's state and mode decide, and on a HELD EXCLUSIVE record the unit's capacity. -/
theorem downgrade : Obligations.Downgrade := by
  intro aid s i r ready attached names
  have run := exec_downgrade_names ready attached names
  have found := names.1
  unfold State.downgradeRecord at run
  refine ⟨fun t d c waits => ?waiting, fun u depth g recalled => ?recalled, fun k cause spent => ?spent,
    fun u depth c holds => ⟨fun shared => ?shared, fun exclusive => ⟨fun single => ?single, fun room => ?lowered⟩⟩⟩
  case waiting =>
    simp only [waits] at run
    rw [Refuses, run, State.taken_refuseNotHolder waits]
  case recalled =>
    simp only [recalled, State.taken_answer] at run
    exact run
  case spent =>
    simp only [spent, State.taken_answer, Record.lapsedAnswer_of_spent spent] at run
    exact run
  case shared =>
    simp only [holds, shared, State.taken_answer] at run
    exact run
  case single =>
    simp only [holds, exclusive, State.taken_unit, single, Nat.le_refl, if_true, State.taken_answer] at run
    exact run
  case lowered =>
    have more : ¬ (s.unit u).config.capacity ≤ 1 := by omega
    simp only [holds, exclusive, State.taken_unit, if_neg more, Record.target_of_held holds,
      State.setMode_of_record (s := s.taken aid 0x08) found] at run
    rw [run, holds]

/-! ### QUERY_LEASE and INSPECT_RECORD (R40, R41) -/

section Inspect

variable {aid : AgentId} {s : State} {i : SlotId} {r : Record}

theorem inspectRecord_badArgument (sup : Supervises aid s) (high : 95 < bitField s.control.arg0 0 8) :
    RefusesControl (.inspectRecord aid) s 0x34 Reason.badArgument 0 := by
  rw [RefusesControl, exec_inspectRecord, execInspectRecord, atControlStation_supervises sup]
  simp [slotOf_eq_none high]

@[simp] theorem State.takenControl_inspectAnswer (s : State) (code : Word) (i : SlotId) :
    (s.takenControl code).inspectAnswer i = s.inspectAnswer i := (rfl)

theorem inspectRecord_answered (sup : Supervises aid s) (named : bitField s.control.arg0 0 8 = i.val) :
    exec (.inspectRecord aid) s = .next (s.repliedControl 0x34 (s.inspectAnswer i)) := by
  rw [exec_inspectRecord, execInspectRecord, atControlStation_supervises sup]
  simp [slotOf_of_eq_val named]

theorem State.inspectAnswer_of_free (free : s.record i = none) :
    s.inspectAnswer i = .ok (place 0 8 (s.slot i).serial.toNat) 0 := by
  simp only [State.inspectAnswer, free]

theorem State.inspectAnswer_of_waiting {t : Target} {d : Nat} {c : Option Nat} (found : s.record i = some r)
    (waits : r.standing = .waiting t d c) :
    s.inspectAnswer i = .ok (place 0 8 (s.slot i).serial.toNat ||| place 8 4 r.agent.val ||| place 12 12 d |||
      place 24 6 t.number ||| place 31 1 (flagNo (s.hasEntry r.agent i))) (s.statusWord i r) := by
  simp only [State.inspectAnswer, found, waits, Record.target_of_waiting waits]

/-- A record that does not wait has no requested duration: its field reads 0. -/
theorem State.inspectAnswer_of_other (found : s.record i = some r) (other : r.isWaiting = false) :
    s.inspectAnswer i = .ok (place 0 8 (s.slot i).serial.toNat ||| place 8 4 r.agent.val |||
      place 24 6 r.target.number ||| place 31 1 (flagNo (s.hasEntry r.agent i))) (s.statusWord i r) := by
  have nothing : place 12 12 0 = 0#32 := rfl
  unfold Record.isWaiting at other
  split at other
  · cases other
  all_goals
    next standing => simp only [State.inspectAnswer, found, standing, nothing, BitVec.or_zero]

end Inspect

/-- Settles O32: the answers are read in the state before the command. -/
theorem queryAndInspect : Obligations.QueryAndInspect := by
  refine ⟨fun aid s i r ready attached names => ?lease, fun aid s sup => ⟨inspectRecord_badArgument sup,
    fun i named => ⟨fun free => ?free, fun r found => ⟨fun t d c waits => ?waiting, fun other => ?other⟩⟩⟩⟩
  case lease => rw [exec_queryLease_names ready attached names, State.taken_answer, State.taken_statusWord]
  case free => rw [inspectRecord_answered sup named, State.inspectAnswer_of_free free]
  case waiting => rw [inspectRecord_answered sup named, State.inspectAnswer_of_waiting found waits]
  case other => rw [inspectRecord_answered sup named, State.inspectAnswer_of_other found other]

/-! ### NEXT_NOTICE and SET_ATTENTION (R128, R130, R131) -/

section Notices

variable {aid : AgentId} {s : State}

theorem nextNotice_notAttached (ready : Ready aid s) (away : s.isAttached aid = false) :
    Refuses (.nextNotice aid) s aid 0x0D Reason.notAttached aid.val := by
  rw [Refuses, exec_nextNotice, execNextNotice, atAgentStation_ready ready]
  simp [away]

theorem nextNotice_empty (ready : Ready aid s) (attached : s.isAttached aid = true)
    (empty : (s.notice aid).entries = []) : exec (.nextNotice aid) s = .next (s.replied aid 0x0D (.ok 0 0)) := by
  rw [exec_nextNotice, execNextNotice, atAgentStation_ready ready]
  simp [attached, empty]

theorem exec_nextNotice_head (ready : Ready aid s) (attached : s.isAttached aid = true) {n : Notice} {rest : List Notice}
    (head : (s.notice aid).entries = n :: rest) :
    exec (.nextNotice aid) s = .next ((s.taken aid 0x0D).readNotice aid n rest) := by
  rw [exec_nextNotice, execNextNotice, atAgentStation_ready ready]
  simp [attached, head]

/-- The entry is read; a SPENT record that it reports on is retired in the same event. -/
theorem State.readNotice_of_record {n : Notice} {r : Record} (rest : List Notice)
    (found : s.record n.handle.slot = some r) (live : s.handle n.handle.slot = n.handle) :
    s.readNotice aid n rest =
      (if r.isSpent then (s.setNotice aid { s.notice aid with entries := rest }).retire n.handle.slot
        else s.setNotice aid { s.notice aid with entries := rest }).answer aid (.ok (noticeWord n rest.length) 0) := by
  have same : (s.setNotice aid { s.notice aid with entries := rest }).handle n.handle.slot = n.handle := live
  have stands : (s.setNotice aid { s.notice aid with entries := rest }).record n.handle.slot = some r := found
  simp only [State.readNotice, same, stands, beq_self_eq_true, Bool.true_and, Option.any_some]

theorem setAttention_notAttached (ready : Ready aid s) (away : s.isAttached aid = false) :
    Refuses (.setAttention aid) s aid 0x0E Reason.notAttached aid.val := by
  rw [Refuses, exec_setAttention, execSetAttention, atAgentStation_ready ready]
  simp [away]

theorem setAttention_badArgument (ready : Ready aid s) (attached : s.isAttached aid = true)
    (high : 1 < bitField (s.station aid).arg0 0 2) : Refuses (.setAttention aid) s aid 0x0E Reason.badArgument 0 := by
  rw [Refuses, exec_setAttention, execSetAttention, atAgentStation_ready ready]
  simp [attached, flagOf_eq_none high]

theorem setAttention_written (ready : Ready aid s) (attached : s.isAttached aid = true) {on : Bool}
    (asked : bitField (s.station aid).arg0 0 2 = flagNo on) :
    exec (.setAttention aid) s = .next
      ((s.replied aid 0x0E (.ok (place 0 1 (flagNo on) ||| place 8 4 (s.notice aid).entries.length) 0)).setNotice aid
        { s.notice aid with attention := on }) := by
  rw [exec_setAttention, execSetAttention, atAgentStation_ready ready]
  simp [attached, flagOf_of_eq_no asked]

theorem State.atn_iff (s : State) (a : AgentId) :
    s.atn a = true ↔ (s.notice a).entries ≠ [] ∧ (s.notice a).attention = true := by
  simp [State.atn]

end Notices

/-- Settles O33: a lemma for each check; NEXT_NOTICE turns on the record that the oldest entry reports on. -/
theorem noticeCommands : Obligations.NoticeCommands := by
  refine ⟨fun aid s ready => ⟨nextNotice_notAttached ready, fun attached => ⟨nextNotice_empty ready attached,
      fun n rest r p head found live read => ?read⟩⟩,
    fun aid s ready => ⟨setAttention_notAttached ready, fun attached => ⟨setAttention_badArgument ready attached,
      fun on asked => setAttention_written ready attached asked⟩⟩, State.atn_iff⟩
  have run := exec_nextNotice_head ready attached head
  rw [State.readNotice_of_record (s := s.taken aid 0x0D) rest found live] at run
  refine ⟨fun unspent => ?_, fun spent => ?_⟩
  · rw [unspent, if_neg Bool.false_ne_true] at run
    rw [run, read]
    rfl
  · rw [spent, if_pos rfl] at run
    rw [run, read]
    rfl

/-! ### A grant and a post (R55, R74, R78, R123 to R125) -/

section Post

variable {s : State} {i : SlotId} {r : Record}

/-- A grant to a waiter of a target. -/
theorem State.grant_of_waiting (own : Option SlotId) (u : UnitId) {t : Target} {d : Nat} {c : Option Nat}
    (found : s.record i = some r) (waits : r.standing = .waiting t d c) {g : State}
    (granted : g = (s.dequeue t i).loadRecord i
      (some { r with standing := .held u 1 (effectiveDuration d (s.unit u).config.limit) })) :
    (own = some i → s.grant own u i = g) ∧ (own ≠ some i → s.grant own u i = g.post .granted i) := by
  subst granted
  refine ⟨fun same => ?_, fun other => ?_⟩
  · simp only [State.grant, found, waits, if_pos same]
  · simp only [State.grant, found, waits, if_neg other]

theorem State.post_of_away (k : NoticeKind) (found : s.record i = some r) (away : s.isAttached r.agent = false) :
    s.post k i = s := by
  simp [State.post, found, away]

theorem State.post_of_attached (k : NoticeKind) (found : s.record i = some r) (attached : s.isAttached r.agent = true) :
    s.post k i = s.setNotice r.agent
      { s.notice r.agent with entries := postEntry (s.notice r.agent).entries ⟨k, s.handle i, r.target⟩ } := by
  simp [State.post, found, attached]

/-- Without an entry for the record the new one joins the tail. -/
theorem postEntry_of_fresh {entries : List Notice} {n : Notice} (fresh : (entries.any fun e => e.handle == n.handle) = false) :
    postEntry entries n = entries ++ [n] := by
  simp only [postEntry, fresh, Bool.false_eq_true, if_false]

/-- The one entry for the record takes the new kind in its place. -/
theorem postEntry_of_entry {ahead behind : List Notice} {m n : Notice} (same : m.handle = n.handle)
    (others : ∀ e, e ∈ ahead ++ behind → e.handle ≠ n.handle) :
    postEntry (ahead ++ m :: behind) n = ahead ++ { m with kind := n.kind } :: behind := by
  have present : ((ahead ++ m :: behind).any fun e => e.handle == n.handle) = true := by simp [same]
  have kept (es : List Notice) (apart : ∀ e, e ∈ es → e.handle ≠ n.handle) :
      es.map (fun e => if e.handle = n.handle then { e with kind := n.kind } else e) = es :=
    (List.map_congr_left (g := id) fun e mem => if_neg (apart e mem)).trans (List.map_id es)
  rw [postEntry, if_pos present, List.map_append, List.map_cons, if_pos same,
    kept ahead fun e mem => others e (List.mem_append_left _ mem),
    kept behind fun e mem => others e (List.mem_append_right _ mem)]

end Post

/-- Settles O34: the record that is granted, and where the entry that a post makes stands. -/
theorem grantAndPost : Obligations.GrantAndPost := by
  refine ⟨⟨fun s own u i r d c found => ⟨fun v waits g granted => ?unit, fun p waits g granted => ?pool⟩, fun d l asked => ?_,
      fun l => rfl, fun d asked => ?_, rfl⟩, fun s kind i r found => ⟨State.post_of_away kind found,
        fun attached => ⟨fun fresh => ?fresh, fun ahead n behind split same others => ?entry⟩⟩⟩
  case unit => exact State.grant_of_waiting own u found waits granted
  case pool => exact State.grant_of_waiting own u found waits granted
  · simp [effectiveDuration, asked]
  · simp [effectiveDuration, asked]
  case fresh =>
    have absent : ((s.notice r.agent).entries.any fun e => e.handle == s.handle i) = false := fresh
    rw [State.post_of_attached kind found attached, postEntry_of_fresh (n := ⟨kind, s.handle i, r.target⟩) absent]
  case entry => rw [State.post_of_attached kind found attached, split, postEntry_of_entry same others]

end Sys2Proof.Machine
end

section
/-! SUPPORT. ACQUIRE and ACQUIRE_ANY (spec/03): what each test comes to, what becomes of the record that a request creates,
and the statements on them. -/

namespace Sys2Proof.Machine

/-! ### A pass gives its own unit alone -/

theorem State.grant_holding {s : State} {own : Option SlotId} {u v : UnitId} {i j : SlotId}
    (holds : (s.grant own u i).holding j = some v) : v = u ∨ s.holding j = some v := by
  cases found : s.record i with
  | none => simp only [State.grant, found] at holds; exact .inr holds
  | some r =>
    cases standing : r.standing with
    | waiting t d c =>
      rw [State.holding, s.grant_record own u i r t d c found standing] at holds
      split at holds
      · cases holds; exact .inl rfl
      · exact .inr holds
    | held => simp only [State.grant, found, standing] at holds; exact .inr holds
    | recalled => simp only [State.grant, found, standing] at holds; exact .inr holds
    | spent => simp only [State.grant, found, standing] at holds; exact .inr holds

theorem stageBWalk_holding {own : Option SlotId} {u v : UnitId} {is : List SlotId} {s : State} {last : Option AgentId}
    {j : SlotId} (holds : (stageBWalk own u is s last).1.holding j = some v) : v = u ∨ s.holding j = some v := by
  induction is generalizing s last with
  | nil => exact .inr holds
  | cons i is ih =>
    unfold stageBWalk at holds
    split at holds
    · split at holds
      · exact (ih holds).elim .inl State.grant_holding
      · exact .inr holds
    · exact ih holds

theorem State.stageB_holding {s : State} {own : Option SlotId} {u v : UnitId} {j : SlotId}
    (holds : (s.stageB own u).holding j = some v) : v = u ∨ s.holding j = some v := by
  rw [State.holding_congr (s.stageB_record own u j)] at holds
  exact stageBWalk_holding holds

theorem State.stageC_holding {s : State} {own : Option SlotId} {u v : UnitId} {j : SlotId}
    (holds : (s.stageC own u).holding j = some v) : v = u ∨ s.holding j = some v := by
  rcases s.stageC_record own u with same | ⟨i, _, granted⟩
  · rw [State.holding_congr (same j)] at holds; exact .inr holds
  · rw [State.holding_congr (granted j)] at holds; exact State.grant_holding holds

theorem State.unitPass_holding {s : State} {own : Option SlotId} {u v : UnitId} {j : SlotId}
    (holds : (s.unitPass own u).holding j = some v) : v = u ∨ s.holding j = some v := by
  by_cases opened : (s.unit u).state = .opened
  · cases mark : (s.unit u).mark with
    | some i =>
      rw [State.unitPass_of_mark opened mark] at holds
      split at holds
      · rw [State.post_holding, State.setMode_holding] at holds
        exact .inr holds
      · exact .inr holds
    | none =>
      rw [State.unitPass_of_unmarked opened mark] at holds
      split at holds
      · exact (State.stageC_holding holds).elim .inl State.stageB_holding
      · exact State.stageB_holding holds
  · rw [State.unitPass_of_ne_opened opened] at holds
    exact .inr holds

theorem State.offer_config (s : State) (own : Option SlotId) (p : PoolId) (u v : UnitId) :
    ((s.offer own p u).unit v).config = (s.unit v).config := by
  unfold State.offer
  split
  · exact (s.stageC_grantedOrSame own u 0).1.config v
  · rfl

/-- A pool pass gives units of its pool alone. -/
theorem State.poolPass_holding {s : State} {own : Option SlotId} {p : PoolId} {v : UnitId} {j : SlotId}
    (holds : (s.poolPass own p).holding j = some v) : (s.unit v).config.pool = some p ∨ s.holding j = some v := by
  unfold State.poolPass at holds
  generalize allUnits = us at holds
  induction us generalizing s with
  | nil => exact .inr holds
  | cons u us ih =>
    rcases ih (s := s.offer own p u) holds with member | before
    · exact .inl (s.offer_config own p u v ▸ member)
    · unfold State.offer at before
      split at before
      · next offered => exact (State.stageC_holding before).imp_left fun (same : v = u) => same ▸ offered.1
      · exact .inr before

/-! ### The holder record and the FREE slot that the tests find (R31, R48) -/

section Finds

variable {s : State} {a : AgentId} {u : UnitId} {i : SlotId} {r : Record}

theorem State.holderOf_of_soleHold (sole : SoleHold s a u i r) : s.holderOf a u = some i := by
  obtain ⟨found, owner, holds, only⟩ := sole
  have member : i ∈ s.holders u := (s.mem_holders u i).mpr ⟨r, found, holds⟩
  cases first : s.holderOf a u with
  | none =>
    have other := List.find?_eq_none.mp first i member
    simp [State.owner, found, owner] at other
  | some j =>
    have named : s.owner j = some a := by simpa using List.find?_some (p := fun k => s.owner k == some a) first
    exact congrArg some (only j named ((s.mem_holders_iff_holding u j).mp (List.mem_of_find?_eq_some first)))

theorem State.holderOf_of_unheld (unheld : ∀ i, s.owner i = some a → s.holding i ≠ some u) : s.holderOf a u = none :=
  List.find?_eq_none.mpr fun i member named =>
    unheld i (eq_of_beq named) ((s.mem_holders_iff_holding u i).mp member)

theorem State.freeSlot_of_lowest (lowest : LowestFree s i) : s.freeSlot = some i := by
  obtain ⟨free, below⟩ := lowest
  refine List.find?_eq_some_iff_getElem.mpr ⟨by simp [free], i.val, by simp [allSlots], by simp [allSlots],
    fun j before => ?_⟩
  have taken := below ⟨j, Nat.lt_trans before i.isLt⟩ before
  simpa [allSlots, Option.isSome_iff_ne_none] using taken

theorem State.freeSlot_of_full (full : ∀ i, s.record i ≠ none) : s.freeSlot = none :=
  List.find?_eq_none.mpr fun i _ => by simpa [Option.isSome_iff_ne_none] using full i

end Finds

/-! ### The last tests of a request (R38, R39) -/

section RequestSlot

variable {s : State} {aid : AgentId} {mode : Mode} {x : Target} {d w : Nat}

theorem State.requestSlot_quota (spent : (s.agent aid).quota ≤ s.recordCount aid) :
    s.requestSlot aid mode x d w = .refused Reason.quota aid.val := if_pos spent

theorem State.requestSlot_full (room : s.recordCount aid < (s.agent aid).quota) (full : ∀ i, s.record i ≠ none) :
    s.requestSlot aid mode x d w = .refused Reason.noRecord 0 := by
  rw [State.requestSlot, if_neg (Nat.not_le.mpr room), State.freeSlot_of_full full]

theorem State.requestSlot_lowestFree {i : SlotId} (room : s.recordCount aid < (s.agent aid).quota)
    (lowest : LowestFree s i) : s.requestSlot aid mode x d w = .create i mode x d w := by
  rw [State.requestSlot, if_neg (Nat.not_le.mpr room), State.freeSlot_of_lowest lowest]

end RequestSlot

/-! ### The tests of ACQUIRE (Table 3-2) -/

section Acquire

variable {aid : AgentId} {s : State} {u : UnitId} {mode : Mode} {d w : Nat}

theorem State.taken_acquireCase (s : State) (aid : AgentId) (code : Word) :
    (s.taken aid code).acquireCase aid = s.acquireCase aid := by
  simp only [State.acquireCase, State.taken_station_arg0, State.taken_station_arg1, State.taken_station_arg2]
  rfl

theorem exec_acquire_case (ready : Ready aid s) :
    exec (.acquire aid) s = .next ((s.taken aid 0x03).takeRequest aid (s.acquireCase aid)) := by
  rw [exec_acquire, execAcquire, atAgentStation_ready ready, State.taken_acquireCase]

theorem acquire_refused {reason location : Nat} (ready : Ready aid s)
    (refused : s.acquireCase aid = .refused reason location) : Refuses (.acquire aid) s aid 0x03 reason location := by
  rw [Refuses, exec_acquire_case ready, refused, State.takeRequest, State.taken_answer]

theorem State.acquireCase_notAttached (away : s.isAttached aid = false) :
    s.acquireCase aid = .refused Reason.notAttached aid.val := if_pos away

theorem State.acquireCase_badArgument (attached : s.isAttached aid = true)
    (out : 1 < bitField (s.station aid).arg0 8 2 ∨ 4095 < bitField (s.station aid).arg1 0 16 ∨
      4095 < bitField (s.station aid).arg2 0 16) : s.acquireCase aid = .refused Reason.badArgument 0 := by
  cases named : modeOf (bitField (s.station aid).arg0 8 2) with
  | none => simp [State.acquireCase, attached, named]
  | some mode =>
    have long : 4095 < bitField (s.station aid).arg1 0 16 ∨ 4095 < bitField (s.station aid).arg2 0 16 :=
      out.resolve_left fun high => nomatch (modeOf_eq_none high).symm.trans named
    simp [State.acquireCase, attached, named, long]

theorem State.acquireCase_noUnit (attached : s.isAttached aid = true)
    (asked : bitField (s.station aid).arg0 8 2 ≤ 1) (duration : bitField (s.station aid).arg1 0 16 ≤ 4095)
    (limit : bitField (s.station aid).arg2 0 16 ≤ 4095) (high : 63 < bitField (s.station aid).arg0 0 8) :
    s.acquireCase aid = .refused Reason.noUnit 0 := by
  have one : bitField (s.station aid).arg0 8 2 = 0 ∨ bitField (s.station aid).arg0 8 2 = 1 := by omega
  rcases one with zero | one
  · simp [State.acquireCase, attached, zero, modeOf, Nat.not_lt.mpr duration, Nat.not_lt.mpr limit, unitOf_eq_none high]
  · simp [State.acquireCase, attached, one, modeOf, Nat.not_lt.mpr duration, Nat.not_lt.mpr limit, unitOf_eq_none high]

theorem State.acquireCase_offline (asks : Requests s aid u mode d w) (state : (s.unit u).state = .offline) :
    s.acquireCase aid = .refused Reason.noUnit u.val := by
  obtain ⟨attached, named, asked, rfl, duration, rfl, limit⟩ := asks
  simp [State.acquireCase, attached, modeOf_of_eq_no asked, Nat.not_lt.mpr duration, Nat.not_lt.mpr limit,
    unitOf_of_eq_val named, state]

theorem State.acquireCase_draining (asks : Requests s aid u mode d w) (state : (s.unit u).state = .draining) :
    s.acquireCase aid = .refused Reason.unitState u.val := by
  obtain ⟨attached, named, asked, rfl, duration, rfl, limit⟩ := asks
  simp [State.acquireCase, attached, modeOf_of_eq_no asked, Nat.not_lt.mpr duration, Nat.not_lt.mpr limit,
    unitOf_of_eq_val named, state]

theorem State.acquireCase_band (asks : Requests s aid u mode d w) (state : (s.unit u).state = .opened)
    (barred : s.bandPermits aid u = false) : s.acquireCase aid = .refused Reason.band u.val := by
  obtain ⟨attached, named, asked, rfl, duration, rfl, limit⟩ := asks
  simp [State.acquireCase, attached, modeOf_of_eq_no asked, Nat.not_lt.mpr duration, Nat.not_lt.mpr limit,
    unitOf_of_eq_val named, state, barred]

theorem State.acquireCase_open (asks : Requests s aid u mode d w) (state : (s.unit u).state = .opened)
    (permitted : s.bandPermits aid u = true) : s.acquireCase aid = s.acquireOpen aid u mode d w := by
  obtain ⟨attached, named, asked, rfl, duration, rfl, limit⟩ := asks
  simp [State.acquireCase, attached, modeOf_of_eq_no asked, Nat.not_lt.mpr duration, Nat.not_lt.mpr limit,
    unitOf_of_eq_val named, state, permitted]

/-! ### Steps 6 to 10 -/

theorem State.acquireOpen_mode (shared : mode = .shared) (single : (s.unit u).config.capacity = 1) :
    s.acquireOpen aid u mode d w = .refused Reason.mode u.val := if_pos ⟨shared, single⟩

section Held

variable {i : SlotId} {r : Record}

theorem State.any_isShared (found : s.record i = some r) : (some i).any s.isShared = (r.mode == .shared) := by
  simp [State.isShared, found]

theorem State.acquireOpen_incompatible (fits : mode = .shared → (s.unit u).config.capacity ≠ 1)
    (sole : SoleHold s aid u i r) (exclusive : mode = .exclusive) (shared : r.mode = .shared) :
    s.acquireOpen aid u mode d w = .refused Reason.mode u.val := by
  have first : ¬ (mode = .shared ∧ (s.unit u).config.capacity = 1) := fun ⟨asked, single⟩ => fits asked single
  rw [State.acquireOpen, State.holderOf_of_soleHold sole]
  dsimp only
  rw [if_neg first, if_pos ⟨exclusive, by rw [State.any_isShared sole.1, shared]; rfl⟩]

/-- A compatible holder record: its state and its depth decide. -/
theorem State.acquireOpen_held (fits : mode = .shared → (s.unit u).config.capacity ≠ 1) (sole : SoleHold s aid u i r)
    (compatible : mode = .exclusive → r.mode = .exclusive) :
    (∀ depth g, r.standing = .recalled u depth g → s.acquireOpen aid u mode d w = .refused Reason.recalled u.val) ∧
    ∀ depth c, r.standing = .held u depth c →
      s.acquireOpen aid u mode d w = if 15 ≤ depth then .refused Reason.depth u.val else .nested i := by
  have first : ¬ (mode = .shared ∧ (s.unit u).config.capacity = 1) := fun ⟨asked, single⟩ => fits asked single
  have second : ¬ (mode = .exclusive ∧ (some i).any s.isShared = true) := fun ⟨asked, shared⟩ => by
    rw [State.any_isShared sole.1, compatible asked] at shared
    cases shared
  have standing : (s.record i).map Record.standing = some r.standing := by rw [sole.1]; rfl
  rw [State.acquireOpen, State.holderOf_of_soleHold sole]
  dsimp only
  rw [if_neg first, if_neg second, standing]
  exact ⟨fun depth g recalled => by rw [recalled], fun depth c holds => by rw [holds]⟩

end Held

/-- The agent holds nothing on the unit: whether it waits there decides, and then quota and store. -/
theorem State.acquireOpen_unheld (fits : mode = .shared → (s.unit u).config.capacity ≠ 1)
    (unheld : ∀ i, s.owner i = some aid → s.holding i ≠ some u) :
    s.acquireOpen aid u mode d w =
      if s.waitsIn aid (s.unit u).queue then .refused Reason.alreadyWaiting u.val
      else s.requestSlot aid mode (.unit u) d w := by
  have first : ¬ (mode = .shared ∧ (s.unit u).config.capacity = 1) := fun ⟨asked, single⟩ => fits asked single
  rw [State.acquireOpen, State.holderOf_of_unheld unheld]
  dsimp only
  rw [if_neg first, if_neg (by simp)]

end Acquire

/-- Settles O22: steps 1 to 5 of Table 3-2, a lemma each. -/
theorem acquireEarlyTests : Obligations.AcquireEarlyTests := fun _ _ ready =>
  ⟨fun away => acquire_refused ready (State.acquireCase_notAttached away),
    fun attached => ⟨fun out => acquire_refused ready (State.acquireCase_badArgument attached out),
      fun asked duration limit high =>
        acquire_refused ready (State.acquireCase_noUnit attached asked duration limit high)⟩,
    fun _ _ _ _ asks => ⟨fun state => acquire_refused ready (State.acquireCase_offline asks state),
      fun state => acquire_refused ready (State.acquireCase_draining asks state),
      fun state barred => acquire_refused ready (State.acquireCase_band asks state barred)⟩⟩

/-- A nested hold on a HELD record raises its depth and answers GRANTED (R48). -/
theorem State.takeRequest_nested {s : State} {aid : AgentId} {i : SlotId} {r : Record} {u : UnitId} {depth : Nat}
    {c : Option Nat} (found : s.record i = some r) (holds : r.standing = .held u depth c) :
    s.takeRequest aid (.nested i) = (s.writeRecord i (some { r with standing := .held u (depth + 1) c })).answer aid
      ⟨.granted, recordWord (s.handle i) (.unit u),
        (s.writeRecord i (some { r with standing := .held u (depth + 1) c })).statusWord i
          { r with standing := .held u (depth + 1) c }⟩ := by
  have deepened : s.deepen i = s.writeRecord i (some { r with standing := .held u (depth + 1) c }) := by
    simp only [State.deepen, found, holds]
  have handle : (s.writeRecord i (some { r with standing := .held u (depth + 1) c })).handle i = s.handle i := by
    rw [State.handle, State.serial_writeRecord, State.handle]
  have stands : (s.writeRecord i (some { r with standing := .held u (depth + 1) c })).record i =
      some { r with standing := .held u (depth + 1) c } := by rw [State.record_writeRecord, if_pos rfl]
  simp only [State.takeRequest, deepened, stands, State.grantedAnswer, handle]
  rfl

/-- Settles O23: steps 6 to 10 of Table 3-2. -/
theorem acquireLaterTests : Obligations.AcquireLaterTests := by
  intro aid s u mode d w ready asks opened permitted
  have tests := State.acquireCase_open asks opened permitted
  refine ⟨fun shared single => acquire_refused ready (tests.trans (State.acquireOpen_mode shared single)), fun fits =>
    ⟨fun i r sole => ⟨fun exclusive shared => ?incompatible, fun compatible => ?held⟩, fun unheld => ?unheld⟩⟩
  case incompatible =>
    exact acquire_refused ready (tests.trans (State.acquireOpen_incompatible fits sole exclusive shared))
  case held =>
    obtain ⟨onRecalled, onHeld⟩ := State.acquireOpen_held (d := d) (w := w) fits sole compatible
    refine ⟨fun depth g recalled => acquire_refused ready (tests.trans (onRecalled depth g recalled)),
      fun depth c holds deep => ?_, fun depth c p r' holds shallow deeper written => ?_⟩
    · exact acquire_refused ready (tests.trans ((onHeld depth c holds).trans (if_pos deep)))
    · subst deeper written
      rw [exec_acquire_case ready, tests, onHeld depth c holds, if_neg (Nat.not_le.mpr shallow),
        State.takeRequest_nested (s := s.taken aid 0x03) sole.1 holds]
      rfl
  case unheld =>
    have test := tests.trans (State.acquireOpen_unheld (d := d) (w := w) fits unheld)
    refine ⟨fun waits => acquire_refused ready (test.trans (if_pos waits)), fun absent => ?_⟩
    rw [absent, if_neg Bool.false_ne_true] at test
    exact ⟨fun spent => acquire_refused ready (test.trans (State.requestSlot_quota spent)),
      fun room full => acquire_refused ready (test.trans (State.requestSlot_full room full))⟩

end Sys2Proof.Machine
end

section
/-! SUPPORT. The record that a request creates (spec/03 R50, R51, R54), the tests of ACQUIRE_ANY (R53), and the statements on
both. -/

namespace Sys2Proof.Machine

/-! ### What becomes of a new record -/

section Created

variable {s q p : State} {i : SlotId} {aid : AgentId} {mode : Mode} {x : Target} {d w : Nat}

/-- The record that a request writes (R31). -/
def requestRecord (aid : AgentId) (mode : Mode) (x : Target) (d w : Nat) : Record :=
  { agent := aid, mode := mode, standing := .waiting x d (if w = 0 ∨ w = 4095 then none else some w) }

theorem State.allocate_record_self : (s.allocate i aid mode x d w).record i = some (requestRecord aid mode x d w) := by
  rw [State.allocate_record, if_pos rfl]
  rfl

theorem State.allocate_config (u : UnitId) : ((s.allocate i aid mode x d w).unit u).config = (s.unit u).config := by
  rw [State.allocate_unit]
  split <;> rfl

/-- The pass leaves the new record WAITING or grants it a unit. -/
theorem State.request_passed (begun : q = s.allocate i aid mode x d w) (passed : p = q.passOn (some i) x) :
    p.record i = some (requestRecord aid mode x d w) ∨
      ∃ u, p.holding i = some u ∧ p.record i = some
        { requestRecord aid mode x d w with standing := .held u 1 (effectiveDuration d (s.unit u).config.limit) } := by
  have new : q.record i = some (requestRecord aid mode x d w) := begun ▸ State.allocate_record_self
  have granted : GrantedOrSame q p i := by
    cases x with
    | pool b => exact passed ▸ q.poolPass_grantedOrSame (some i) b i
    | unit v =>
      rcases q.unitPass_record (some i) v i with granted | ⟨r, _, alone, _⟩
      · exact passed ▸ granted
      · have holds := (q.mem_holders_iff_holding v i).mp (alone ▸ List.mem_singleton_self i)
        rw [State.holding_of_record new] at holds
        cases holds
  rcases granted with same | ⟨r, u, t, d', c, before, waits, _, after⟩
  · exact .inl (same.trans new)
  · cases new.symm.trans before
    cases waits
    have config : (q.unit u).config = (s.unit u).config := begun ▸ State.allocate_config u
    rw [config] at after
    exact .inr ⟨u, State.holding_of_record after, after⟩

theorem State.request_handle (begun : q = s.allocate i aid mode x d w) (passed : p = q.passOn (some i) x) :
    p.handle i = ⟨i, (s.slot i).serial + 1⟩ := by
  rw [State.handle, passed, State.passOn_serial, begun, State.allocate_serial, if_pos rfl]

/-! ### The answer to a created request -/

variable {r : Record}

theorem State.answerRequest_of_granted (found : p.record i = some r) (granted : r.isWaiting = false) :
    p.answerRequest aid i x w = p.answer aid (p.grantedAnswer i r) := by
  simp only [State.answerRequest, found, granted, if_true]

theorem State.answerRequest_of_queued (found : p.record i = some r) (waits : r.isWaiting = true) (long : 0 < w) :
    p.answerRequest aid i x w = p.answer aid ⟨.queued, recordWord (p.handle i) x, 0⟩ := by
  have some : w ≠ 0 := Nat.pos_iff_ne_zero.mp long
  simp [State.answerRequest, found, waits, some]

theorem State.answerRequest_of_once (found : p.record i = some r) (waits : r.isWaiting = true) (once : w = 0) :
    p.answerRequest aid i x w = (p.retire i).answer aid (.refuse Reason.unavailable x.number) := by
  simp [State.answerRequest, found, waits, once]

theorem State.takeRequest_create (s : State) :
    s.takeRequest aid (.create i mode x d w) =
      ((s.allocate i aid mode x d w).passOn (some i) x).answerRequest aid i x w := rfl

end Created

/-- Settles O24: what the pass leaves in the slot decides the answer. -/
theorem acquireCreates : Obligations.AcquireCreates := by
  intro aid s p u mode d w i ready asks opened permitted fits unheld absent room lowest passed
  have decided : s.acquireCase aid = .create i mode (.unit u) d w := by
    rw [State.acquireCase_open asks opened permitted, State.acquireOpen_unheld fits unheld, absent,
      if_neg Bool.false_ne_true, State.requestSlot_lowestFree room lowest]
  have begun : p = ((s.taken aid 0x03).allocate i aid mode (.unit u) d w).passOn (some i) (.unit u) := passed
  have run : exec (.acquire aid) s = .next (p.answerRequest aid i (.unit u) w) := by
    rw [exec_acquire_case ready, decided, State.takeRequest_create, ← begun]
  have handle : p.handle i = ⟨i, (s.slot i).serial + 1⟩ := State.request_handle (s := s.taken aid 0x03) rfl begun
  rw [run]
  rcases State.request_passed (s := s.taken aid 0x03) rfl begun with waits | ⟨v, holds, granted⟩
  · refine ⟨_, waits, nofun, fun waiting long => ?_, fun waiting once => ?_⟩
    · rw [State.answerRequest_of_queued waits waiting long, handle]
    · exact congrArg _ (State.answerRequest_of_once waits waiting once)
  · have own : v = u := (State.unitPass_holding (begun ▸ holds)).resolve_right fun before => by
      rw [State.holding_of_record State.allocate_record_self] at before
      cases before
    subst own
    refine ⟨_, granted, fun _ => ⟨rfl, ?_⟩, nofun, nofun⟩
    rw [State.answerRequest_of_granted granted rfl, State.grantedAnswer, handle, Record.target_of_held rfl]

/-! ### ACQUIRE_ANY (R53, R54) -/

section AcquireAny

variable {aid : AgentId} {s : State} {b : PoolId} {d w : Nat}

theorem State.taken_acquireAnyCase (s : State) (aid : AgentId) (code : Word) :
    (s.taken aid code).acquireAnyCase aid = s.acquireAnyCase aid := by
  simp only [State.acquireAnyCase, State.taken_station_arg0, State.taken_station_arg1, State.taken_station_arg2]
  rfl

theorem exec_acquireAny_case (ready : Ready aid s) :
    exec (.acquireAny aid) s = .next ((s.taken aid 0x04).takeRequest aid (s.acquireAnyCase aid)) := by
  rw [exec_acquireAny, execAcquireAny, atAgentStation_ready ready, State.taken_acquireAnyCase]

theorem acquireAny_refused {reason location : Nat} (ready : Ready aid s)
    (refused : s.acquireAnyCase aid = .refused reason location) :
    Refuses (.acquireAny aid) s aid 0x04 reason location := by
  rw [Refuses, exec_acquireAny_case ready, refused, State.takeRequest, State.taken_answer]

theorem State.acquireAnyCase_notAttached (away : s.isAttached aid = false) :
    s.acquireAnyCase aid = .refused Reason.notAttached aid.val := if_pos away

theorem State.acquireAnyCase_badArgument (attached : s.isAttached aid = true)
    (long : 4095 < bitField (s.station aid).arg1 0 16 ∨ 4095 < bitField (s.station aid).arg2 0 16) :
    s.acquireAnyCase aid = .refused Reason.badArgument 0 := by
  simp [State.acquireAnyCase, attached, long]

theorem State.acquireAnyCase_noPool (attached : s.isAttached aid = true)
    (duration : bitField (s.station aid).arg1 0 16 ≤ 4095) (limit : bitField (s.station aid).arg2 0 16 ≤ 4095)
    (high : 7 < bitField (s.station aid).arg0 0 8) : s.acquireAnyCase aid = .refused Reason.noPool 0 := by
  simp [State.acquireAnyCase, attached, Nat.not_lt.mpr duration, Nat.not_lt.mpr limit, poolOf_eq_none high]

theorem State.acquireAnyCase_empty (asks : RequestsAny s aid b d w) (empty : ∀ u, (s.unit u).config.pool ≠ some b) :
    s.acquireAnyCase aid = .refused Reason.noPool b.val := by
  obtain ⟨attached, named, rfl, duration, rfl, limit⟩ := asks
  have none : s.members b = [] := List.eq_nil_iff_forall_not_mem.mpr fun u member =>
    empty u ((s.mem_members b u).mp member)
  simp [State.acquireAnyCase, attached, Nat.not_lt.mpr duration, Nat.not_lt.mpr limit, poolOf_of_eq_val named, none]

/-- A pool with a member: whether the agent waits there decides, and then quota and store. -/
theorem State.acquireAnyCase_member (asks : RequestsAny s aid b d w) (member : ∃ u, (s.unit u).config.pool = some b) :
    s.acquireAnyCase aid =
      if s.waitsIn aid (s.pool b).queue then .refused Reason.alreadyWaiting b.val
      else s.requestSlot aid .exclusive (.pool b) d w := by
  obtain ⟨attached, named, rfl, duration, rfl, limit⟩ := asks
  obtain ⟨u, inPool⟩ := member
  have some : s.members b ≠ [] := List.ne_nil_of_mem ((s.mem_members b u).mpr inPool)
  simp [State.acquireAnyCase, attached, Nat.not_lt.mpr duration, Nat.not_lt.mpr limit, poolOf_of_eq_val named, some]

end AcquireAny

/-- Settles O25: the tests of R53, a lemma each; what the pass leaves in the slot decides the answer. -/
theorem acquireAny : Obligations.AcquireAny := by
  intro aid s ready
  refine ⟨fun away => acquireAny_refused ready (State.acquireAnyCase_notAttached away), fun attached =>
    ⟨fun long => acquireAny_refused ready (State.acquireAnyCase_badArgument attached long), fun duration limit high =>
      acquireAny_refused ready (State.acquireAnyCase_noPool attached duration limit high)⟩,
    fun b d w asks => ⟨fun empty => acquireAny_refused ready (State.acquireAnyCase_empty asks empty),
      fun member => ?_⟩⟩
  have test := State.acquireAnyCase_member asks member
  refine ⟨fun waits => acquireAny_refused ready (test.trans (if_pos waits)), fun absent => ?_⟩
  rw [absent, if_neg Bool.false_ne_true] at test
  refine ⟨fun spent => acquireAny_refused ready (test.trans (State.requestSlot_quota spent)),
    fun room full => acquireAny_refused ready (test.trans (State.requestSlot_full room full)),
    fun i q room lowest passed => ?_⟩
  have begun : q = ((s.taken aid 0x04).allocate i aid .exclusive (.pool b) d w).passOn (some i) (.pool b) := passed
  have run : exec (.acquireAny aid) s = .next (q.answerRequest aid i (.pool b) w) := by
    rw [exec_acquireAny_case ready, test, State.requestSlot_lowestFree room lowest, State.takeRequest_create, ← begun]
  have handle : q.handle i = ⟨i, (s.slot i).serial + 1⟩ := State.request_handle (s := s.taken aid 0x04) rfl begun
  rw [run]
  rcases State.request_passed (s := s.taken aid 0x04) rfl begun with waits | ⟨u, holds, granted⟩
  · refine ⟨_, waits, nofun, fun waiting long => ?_, fun waiting once => ?_⟩
    · rw [State.answerRequest_of_queued waits waiting long, handle]
    · exact congrArg _ (State.answerRequest_of_once waits waiting once)
  · have inPool := (State.poolPass_holding (begun ▸ holds)).resolve_right fun before => by
      rw [State.holding_of_record State.allocate_record_self] at before
      cases before
    rw [State.allocate_config] at inPool
    refine ⟨_, granted, fun _ => ⟨u, inPool, rfl, ?_⟩, nofun, nofun⟩
    rw [State.answerRequest_of_granted granted rfl, State.grantedAnswer, handle, Record.target_of_held rfl]

end Sys2Proof.Machine
end

section
/-! SUPPORT. The stages of the grant passes (spec/04 R74 to R79), what a pass leaves as it was, and the statements on
them. -/

namespace Sys2Proof.Machine

/-! ### Stage B (R74, R76) -/

section StageB

variable {own : Option SlotId} {u : UnitId} {s : State} {last : Option AgentId} {ahead behind : List SlotId} {i : SlotId}
  {r : Record}

theorem stageBWalk_of_ineligible (idle : ∀ j, j ∈ ahead → s.eligible j u = false) (rest : List SlotId) :
    stageBWalk own u (ahead ++ rest) s last = stageBWalk own u rest s last := by
  induction ahead with
  | nil => rfl
  | cons j ahead ih =>
    have passed : ¬ s.eligible j u = true := by simp [idle j (.head ahead)]
    rw [List.cons_append, stageBWalk, if_neg passed]
    exact ih fun k mem => idle k (.tail j mem)

theorem stageBWalk_of_stopped (eligible : s.eligible i u = true) (stops : s.fits i u = false) :
    stageBWalk own u (i :: behind) s last = (s, last) := by
  rw [stageBWalk, if_pos eligible, stops, if_neg Bool.false_ne_true]

theorem stageBWalk_of_granted (eligible : s.eligible i u = true) (found : s.record i = some r)
    (fits : s.fits i u = true) :
    stageBWalk own u (i :: behind) s last = stageBWalk own u behind (s.grant own u i) (some r.agent) := by
  have owner : s.owner i = some r.agent := by simp [State.owner, found]
  rw [stageBWalk, if_pos eligible, if_pos fits, owner, Option.some_or]

end StageB

/-- Settles O47: the walk splits at the first eligible waiter; the bottom agent moves where the walk granted. -/
theorem passStageB : Obligations.PassStageB := by
  refine ⟨fun own u ahead s last idle => ⟨?none, fun i behind r eligible found => ⟨fun stops => ?stopped,
    fun fits => ?granted⟩⟩, fun own u s w last walked => ⟨fun a granted ring rotates => ?moved, fun still => ?kept⟩⟩
  case none =>
    have passed := stageBWalk_of_ineligible (own := own) (last := last) idle []
    rwa [List.append_nil] at passed
  case stopped =>
    rw [stageBWalk_of_ineligible idle, stageBWalk_of_stopped eligible ((State.fits_of_record found u).trans stops)]
  case granted =>
    rw [stageBWalk_of_ineligible idle, stageBWalk_of_granted eligible found ((State.fits_of_record found u).trans fits)]
  case moved =>
    subst granted
    simp only [State.stageB, walked]
    exact if_pos ⟨ring, rotates⟩
  case kept =>
    cases last with
    | none => simp only [State.stageB, walked]
    | some a =>
      have unmoved : ¬ ((s.unit u).config.order = .ring ∧ (s.unit u).config.rotate = true) := by
        rintro ⟨ring, rotates⟩
        rcases still with none | arrival | fixed
        · cases none
        · exact nomatch ring.symm.trans arrival
        · exact nomatch rotates.symm.trans fixed
      simp only [State.stageB, walked, if_neg unmoved]

/-! ### Stage C (R77 to R79) -/

section StageC

variable {s : State} {own : Option SlotId} {u : UnitId} {p : PoolId}

theorem State.stageC_of_no_pool (alone : (s.unit u).config.pool = none) : s.stageC own u = s := by
  simp only [State.stageC, alone]

theorem State.stageC_of_none (member : (s.unit u).config.pool = some p)
    (idle : ∀ i, i ∈ s.rank (s.pool p).order (s.pool p).bottom (s.pool p).queue → s.eligible i u = false) :
    s.stageC own u = s := by
  have none : (s.rank (s.pool p).order (s.pool p).bottom (s.pool p).queue).find? (fun i => s.eligible i u) = none :=
    List.find?_eq_none.mpr fun i mem => by simp [idle i mem]
  simp only [State.stageC, member, none]

theorem State.stageC_of_some (member : (s.unit u).config.pool = some p) {ahead behind : List SlotId} {i : SlotId}
    {r : Record} (ranked : s.rank (s.pool p).order (s.pool p).bottom (s.pool p).queue = ahead ++ i :: behind)
    (idle : ∀ j, j ∈ ahead → s.eligible j u = false) (eligible : s.eligible i u = true) (found : s.record i = some r) :
    s.stageC own u = if (s.pool p).order = .ring ∧ (s.pool p).rotate = true then
      (s.grant own u i).setPool p { (s.grant own u i).pool p with bottom := r.agent } else s.grant own u i := by
  have first : (s.rank (s.pool p).order (s.pool p).bottom (s.pool p).queue).find? (fun i => s.eligible i u) = some i :=
    List.find?_eq_some_iff_append.mpr ⟨eligible, ahead, behind, ranked, fun j mem => by simp [idle j mem]⟩
  have owner : s.owner i = some r.agent := by simp [State.owner, found]
  simp only [State.stageC, member, first, owner]

theorem State.offer_of_free (member : (s.unit u).config.pool = some p) (opened : (s.unit u).state = .opened)
    (free : s.holders u = []) : s.offer own p u = s.stageC own u :=
  if_pos ⟨member, opened, List.isEmpty_iff.mpr free⟩

theorem State.offer_of_other (other : (s.unit u).config.pool ≠ some p ∨ (s.unit u).state ≠ .opened ∨ s.holders u ≠ []) :
    s.offer own p u = s := by
  refine if_neg ?_
  rintro ⟨member, opened, free⟩
  rcases other with outside | closed | held
  · exact outside member
  · exact closed opened
  · exact held (List.isEmpty_iff.mp free)

/-- Only members are visited, and a visit changes no unit's pool. -/
theorem State.foldl_offer_members (own : Option SlotId) (p : PoolId) (us : List UnitId) (s t : State)
    (same : ∀ v, (t.unit v).config = (s.unit v).config) :
    us.foldl (fun s u => s.offer own p u) t =
      (us.filter fun v => (s.unit v).config.pool == some p).foldl (fun s v => s.offer own p v) t := by
  induction us generalizing t with
  | nil => rfl
  | cons u us ih =>
    have kept (v : UnitId) : ((t.offer own p u).unit v).config = (s.unit v).config :=
      (t.offer_config own p u v).trans (same v)
    by_cases member : (s.unit u).config.pool = some p
    · rw [List.filter_cons_of_pos (by simp [member])]
      exact ih _ kept
    · rw [List.filter_cons_of_neg (by simp [member]), ← ih t same, List.foldl_cons,
        State.offer_of_other (.inl (same u ▸ member))]

end StageC

/-- Settles O49: the pool's first eligible waiter decides stage C; a pool pass is a fold of offers. -/
theorem passStageC : Obligations.PassStageC := by
  intro s own u
  refine ⟨State.stageC_of_no_pool, fun p member => ⟨State.stageC_of_none member,
      fun ahead i behind r g ranked idle eligible found granted => ?granted, State.offer_of_free member,
      fun other => State.offer_of_other (.inr other)⟩,
    fun p => State.foldl_offer_members own p allUnits s s fun _ => rfl⟩
  rw [State.stageC_of_some member ranked idle eligible found, granted]
  refine ⟨fun ring rotates => if_pos ⟨ring, rotates⟩, fun still => if_neg ?_⟩
  rintro ⟨ring, rotates⟩
  exact still.elim (fun arrival => nomatch ring.symm.trans arrival) fun fixed => nomatch rotates.symm.trans fixed

end Sys2Proof.Machine
end

section
/-! SUPPORT. No waiter overtakes another (spec/04 R74), and what a pass leaves as it was (R70 to R79): the statements on
them. -/

namespace Sys2Proof.Machine

/-! ### Who a pass grants -/

theorem State.holding_of_wait {s : State} {i : SlotId} {w : AgentId × Target} (waits : s.wait i = some w) :
    s.holding i = none := by
  obtain ⟨r, found, _, d, c, standing⟩ := State.wait_eq_some.mp (show s.wait i = some (w.1, w.2) from waits)
  simp [State.holding, found, Record.holding, standing]

theorem Record.holding_of_isWaiting {r : Record} (waits : r.isWaiting = true) : r.holding = none := by
  obtain ⟨x, d, c, standing⟩ := Record.isWaiting_iff.mp waits
  simp [Record.holding, standing]

theorem State.unitPass_granted_eligible {s : State} {own : Option SlotId} {u : UnitId} {j : SlotId} {r : Record}
    (found : s.record j = some r) (waits : r.isWaiting = true) (holds : (s.unitPass own u).holding j = some u) :
    s.eligible j u = true := by
  have idle : s.holding j = none := (State.holding_of_record found).trans (Record.holding_of_isWaiting waits)
  rcases s.unitPass_record own u j with same | ⟨_, _, alone, _⟩
  · rcases same with same | ⟨q, v, t, d, c, before, _, eligible, after⟩
    · exact nomatch ((State.holding_congr same).symm.trans holds).symm.trans idle
    · rw [State.holding_of_record after] at holds
      cases holds
      exact eligible
  · have held := (s.mem_holders_iff_holding u j).mp (alone ▸ List.mem_singleton_self j)
    exact nomatch idle.symm.trans held

theorem Grants.holding {s t : State} (grants : Grants s t) {i : SlotId} {u : UnitId} (holds : s.holding i = some u) :
    t.holding i = some u := by
  obtain ⟨a, held⟩ := State.holding_eq_some_iff_hold.mp holds
  exact State.holding_eq_some_iff_hold.mpr ⟨a, grants.hold i _ held⟩

/-- A grant leaves every other waiter as eligible as it was. -/
theorem State.grant_eligible_of_ne {s : State} {own : Option SlotId} {u : UnitId} {k : SlotId}
    (granted : s.eligible k u = true) {i : SlotId} (apart : i ≠ k) :
    (s.grant own u k).eligible i u = s.eligible i u ∧ (s.grant own u k).holding i = s.holding i := by
  obtain ⟨r, t, d, c, found, waits, _⟩ := (s.eligible_iff k u).mp granted
  have record : (s.grant own u k).record i = s.record i := by
    rw [s.grant_record own u k r t d c found waits, if_neg apart]
  exact ⟨State.eligible_congr u record (by simp) (by simp) (by simp), State.holding_congr record⟩

/-- The walk stops before it grants a waiter behind an eligible one that it does not grant. -/
theorem stageBWalk_no_overtaking {own : Option SlotId} {u : UnitId} {ahead rest : List SlotId} {i j : SlotId} {s : State}
    {last : Option AgentId} (once : (ahead ++ i :: rest).Nodup) (behind : j ∈ rest) (eligible : s.eligible i u = true)
    (idle : s.holding j ≠ some u) (holds : (stageBWalk own u (ahead ++ i :: rest) s last).1.holding j = some u) :
    (stageBWalk own u (ahead ++ i :: rest) s last).1.holding i = some u := by
  induction ahead generalizing s last with
  | nil =>
    obtain ⟨r, t, d, c, found, waits, _⟩ := (s.eligible_iff i u).mp eligible
    simp only [List.nil_append] at holds ⊢
    rw [stageBWalk, if_pos eligible] at holds ⊢
    split at holds
    · next fits =>
      rw [if_pos fits]
      have granted : (s.grant own u i).holding i = some u := by
        rw [State.holding, s.grant_record own u i r t d c found waits, if_pos rfl]
        rfl
      exact (stageBWalk_grants own u rest _ _).holding granted
    · exact absurd holds idle
  | cons k ahead ih =>
    rw [List.cons_append, List.nodup_cons, List.mem_append, List.mem_cons] at once
    obtain ⟨fresh, once⟩ := once
    have apartI : i ≠ k := fun same => fresh (.inr (.inl same.symm))
    have apartJ : j ≠ k := fun same => fresh (.inr (.inr (same ▸ behind)))
    rw [List.cons_append, stageBWalk] at holds ⊢
    split at holds
    · next eligibleK =>
      rw [if_pos eligibleK]
      split at holds
      · next fits =>
        rw [if_pos fits]
        obtain ⟨still, _⟩ := State.grant_eligible_of_ne (own := own) eligibleK apartI
        obtain ⟨_, unheld⟩ := State.grant_eligible_of_ne (own := own) eligibleK apartJ
        exact ih once (still.trans eligible) (unheld ▸ idle) holds
      · exact absurd holds idle
    · next passed =>
      rw [if_neg passed]
      exact ih once eligible idle holds

/-- The ranked waiters of a queue are each ranked once. -/
theorem QueueLaw.rank_nodup {s : State} (law : QueueLaw s) (x : Target) (order : OrderMode) (b : AgentId) :
    (s.rank order b (s.queueAt x)).Nodup := by
  obtain ⟨once, _, one⟩ := (queueLaw_iff s).mp law x
  cases order with
  | arrival => exact once
  | ring =>
    have owned : ∀ i, i ∈ s.rank .ring b (s.queueAt x) → ∃ a, s.owner i = some a := fun i mem =>
      (State.mem_rank_ring.mp mem).2
    refine (State.rank_ring_pairwise once one).imp_of_mem fun {i j} hi _ before same => ?_
    obtain ⟨a, owner⟩ := owned i hi
    exact Nat.lt_irrefl _ (before a a owner (same ▸ owner))

/-- Settles O48: the walk of stage B splits at the waiter ahead; stage C runs only where stage B granted nobody. -/
theorem noOvertaking : Obligations.NoOvertaking := by
  refine ⟨fun s own u j r found waits holds => State.unitPass_granted_eligible found waits holds,
    fun s t own u ahead between behind i j law passed ranked holds => ?_⟩
  subst passed
  have mem : j ∈ s.rank (s.unit u).config.order (s.unit u).bottom (s.unit u).queue := by rw [ranked]; simp
  obtain ⟨a, waits⟩ := (law.mem_queueAt (x := .unit u)).mp (State.mem_of_rank mem)
  have idle : s.holding j ≠ some u := by rw [State.holding_of_wait waits]; exact nofun
  have eligibleJ : s.eligible j u = true := by
    obtain ⟨r, found, standing⟩ := Option.bind_eq_some_iff.mp waits
    exact State.unitPass_granted_eligible found (Record.waits_of_wait standing).1 holds
  refine ⟨eligibleJ, fun eligibleI => ?_⟩
  have once := law.rank_nodup (.unit u) (s.unit u).config.order (s.unit u).bottom
  change (s.rank (s.unit u).config.order (s.unit u).bottom (s.unit u).queue).Nodup at once
  by_cases opened : (s.unit u).state = .opened
  · cases mark : (s.unit u).mark with
    | some k =>
      rw [State.unitPass_of_mark opened mark] at holds
      split at holds
      · rw [State.post_holding, State.setMode_holding] at holds
        exact absurd holds idle
      · exact absurd holds idle
    | none =>
      rw [State.unitPass_of_unmarked opened mark] at holds ⊢
      split at holds
      · next free =>
        rw [State.holders_congr_record (s.stageB_record own u)] at free
        exact nomatch (stageBWalk_ineligible own u _ s none free j mem).symm.trans eligibleJ
      · next held =>
        rw [if_neg held, State.holding_congr (s.stageB_record own u i)]
        rw [State.holding_congr (s.stageB_record own u j)] at holds
        rw [ranked, List.append_assoc, List.cons_append] at once holds ⊢
        exact stageBWalk_no_overtaking once (by simp) eligibleI idle holds
  · rw [State.unitPass_of_ne_opened opened] at holds
    exact absurd holds idle

end Sys2Proof.Machine
end

section
/-! SUPPORT. What a grant pass leaves as it was (spec/04 R70 to R79): the frame of the passes, and the statement on it. -/

namespace Sys2Proof.Machine

/-! ### The fields that no pass writes -/

section Unwritten

variable {α : Type} (f : State → α) (units : ∀ s u r, f (State.setUnit s u r) = f s)
  (pools : ∀ s p r, f (State.setPool s p r) = f s) (slots : ∀ s i r, f (State.setSlot s i r) = f s)
  (timers : ∀ s i, f (State.setTimer s (s.timer.spoil i)) = f s)
  (notices : ∀ s a es, f (State.setNotice s a { s.notice a with entries := es }) = f s)

include notices in
theorem State.post_unwritten (s : State) (k : NoticeKind) (i : SlotId) : f (s.post k i) = f s := by
  unfold State.post
  split
  · rfl
  · split
    · exact notices s _ _
    · rfl

include slots in
theorem State.setMode_unwritten (s : State) (i : SlotId) (m : Mode) : f (s.setMode i m) = f s := by
  unfold State.setMode
  split
  · rfl
  · exact slots s i _

include units pools in
theorem State.dequeue_unwritten (s : State) (x : Target) (i : SlotId) : f (s.dequeue x i) = f s := by
  cases x with
  | unit u => exact units s u _
  | pool p => exact pools s p _

include units pools slots timers notices in
theorem State.grant_unwritten (s : State) (own : Option SlotId) (u : UnitId) (i : SlotId) :
    f (s.grant own u i) = f s := by
  have load (w : State) (r : Option Record) : f (w.loadRecord i r) = f w :=
    (timers (w.writeRecord i r) i).trans (slots w i _)
  unfold State.grant
  split
  · rfl
  · split
    · dsimp only
      split
      · exact (load _ _).trans (State.dequeue_unwritten f units pools s _ i)
      · exact (State.post_unwritten f notices _ _ i).trans ((load _ _).trans (State.dequeue_unwritten f units pools s _ i))
    all_goals rfl

include units pools slots timers notices in
/-- Beyond units, pools, slots, the arrivals in flight and the notices' entries no pass writes anything. -/
theorem State.passOn_unwritten (s : State) (own : Option SlotId) (x : Target) : f (s.passOn own x) = f s :=
  s.passOn_same f (State.grant_unwritten f units pools slots timers notices) (fun s u _ => units s u _)
    (fun s p _ => pools s p _)
    (fun s u i => (State.post_unwritten f notices _ _ i).trans
      ((State.setMode_unwritten f slots _ i _).trans (units s u _))) own x

end Unwritten

theorem State.passOn_attention (s : State) (own : Option SlotId) (x : Target) (a : AgentId) :
    ((s.passOn own x).notice a).attention = (s.notice a).attention :=
  State.passOn_unwritten (fun s => (s.notice a).attention) (fun _ _ _ => rfl) (fun _ _ _ => rfl) (fun _ _ _ => rfl)
    (fun _ _ => rfl)
    (fun s b es => by
      rw [State.notice_setNotice]
      split
      · next same => rw [same]
      · rfl) s own x

/-! ### A pass writes the units and pools whose waiters it grants -/

section Granted

variable {α : Type} {f : State → α} {x : Target}

/-- f reads nothing that a grant of a waiter of x writes. -/
def KeptByGrants (f : State → α) (x : Target) : Prop :=
  ∀ (s : State) (own : Option SlotId) (u : UnitId) (i : SlotId) (a : AgentId), s.wait i = some (a, x) →
    f (s.grant own u i) = f s

theorem State.wait_of_eligible {s : State} {i : SlotId} {u : UnitId} (eligible : s.eligible i u = true) :
    ∃ w, s.wait i = some w := by
  obtain ⟨r, y, d, c, found, standing, _⟩ := (s.eligible_iff i u).mp eligible
  exact ⟨(r.agent, y), State.wait_eq_some.mpr ⟨r, found, rfl, d, c, standing⟩⟩

theorem State.wait_of_grant {s : State} {own : Option SlotId} {u : UnitId} {i j : SlotId} {w : AgentId × Target}
    (eligible : s.eligible i u = true) (waits : (s.grant own u i).wait j = some w) : s.wait j = some w := by
  obtain ⟨r, y, d, c, found, standing, _⟩ := (s.eligible_iff i u).mp eligible
  have record := s.grant_record own u i r y d c found standing j
  by_cases same : j = i
  · rw [if_pos same] at record
    exact nomatch (State.wait_of_record record).symm.trans waits
  · rw [if_neg same] at record
    exact (State.wait_congr record).symm.trans waits

/-- Of slots that wait for x, or not at all, stage B grants waiters of x alone. -/
theorem stageBWalk_keeps (kept : KeptByGrants f x) (own : Option SlotId) (u : UnitId) (is : List SlotId) (s : State)
    (last : Option AgentId) (waits : ∀ i, i ∈ is → ∀ w, s.wait i = some w → w.2 = x) :
    f (stageBWalk own u is s last).1 = f s := by
  induction is generalizing s last with
  | nil => rfl
  | cons i is ih =>
    have rest : ∀ j, j ∈ is → ∀ w, s.wait j = some w → w.2 = x := fun j mem => waits j (.tail i mem)
    rw [stageBWalk]
    split
    · next eligible =>
      split
      · obtain ⟨⟨a, y⟩, wait⟩ := State.wait_of_eligible eligible
        obtain rfl : y = x := waits i (.head is) _ wait
        exact (ih _ _ fun j mem w wait => rest j mem w (State.wait_of_grant eligible wait)).trans
          (kept s own u i a wait)
      · rfl
    · exact ih s last rest

theorem State.stageB_keeps {s : State} {u : UnitId} (law : QueueLaw s) (kept : KeptByGrants f (.unit u))
    (bottom : ∀ (s : State) (a : AgentId), f (s.setUnit u { s.unit u with bottom := a }) = f s) (own : Option SlotId) :
    f (s.stageB own u) = f s := by
  have walk := stageBWalk_keeps kept own u (s.rank (s.unit u).config.order (s.unit u).bottom (s.unit u).queue) s none
    fun i mem w wait => by
      obtain ⟨a, own⟩ := (law.mem_queueAt (x := .unit u)).mp (State.mem_of_rank mem)
      exact congrArg Prod.snd (Option.some.inj (wait.symm.trans own))
  unfold State.stageB
  dsimp only
  split
  · next walked => rw [walked] at walk; exact walk
  · next walked =>
    rw [walked] at walk
    split
    · exact (bottom _ _).trans walk
    · exact walk

theorem State.stageC_keeps {s : State} {u : UnitId} (law : QueueLaw s)
    (kept : ∀ p, (s.unit u).config.pool = some p → KeptByGrants f (.pool p))
    (bottom : ∀ p, (s.unit u).config.pool = some p → ∀ (w : State) (a : AgentId),
      f (w.setPool p { w.pool p with bottom := a }) = f w) (own : Option SlotId) :
    f (s.stageC own u) = f s := by
  unfold State.stageC
  split
  · rfl
  · next p member =>
    dsimp only
    split
    · rfl
    · next i found =>
      obtain ⟨a, wait⟩ := (law.mem_queueAt (x := .pool p)).mp (State.mem_of_rank (List.mem_of_find?_eq_some found))
      have granted := kept p member s own u i a wait
      split
      · exact granted
      · split
        · exact (bottom p member _ _).trans granted
        · exact granted

/-- A unit pass: what the grants of the waiters of u and of u's pool, and u's own fields, leave as it was. -/
theorem State.unitPass_keeps {s : State} {u : UnitId} (law : QueueLaw s) (kept : KeptByGrants f (.unit u))
    (keptPool : ∀ p, (s.unit u).config.pool = some p → KeptByGrants f (.pool p))
    (written : ∀ (w : State) (r : UnitRecord), f (w.setUnit u r) = f w)
    (bottom : ∀ p, (s.unit u).config.pool = some p → ∀ (w : State) (a : AgentId),
      f (w.setPool p { w.pool p with bottom := a }) = f w)
    (upgrade : ∀ (w : State) (i : SlotId), f ((w.setMode i .exclusive).post .upgraded i) = f w) (own : Option SlotId) :
    f (s.unitPass own u) = f s := by
  by_cases opened : (s.unit u).state = .opened
  · cases mark : (s.unit u).mark with
    | some i =>
      rw [State.unitPass_of_mark opened mark]
      split
      · exact (upgrade _ i).trans (written s _)
      · rfl
    | none =>
      rw [State.unitPass_of_unmarked opened mark]
      have b := State.stageB_keeps law kept (fun w a => written w _) own
      have config := (s.stageB_grantedOrSame own u ⟨0, by decide⟩).1.config u
      split
      · refine (State.stageC_keeps ((s.stageB_chain own u opened mark).keeps_queueLaw law) ?_ ?_ own).trans b
        · rwa [config]
        · rwa [config]
      · exact b
  · rw [State.unitPass_of_ne_opened opened]

theorem State.offer_keeps {s : State} {p : PoolId} (law : QueueLaw s) (kept : KeptByGrants f (.pool p))
    (bottom : ∀ (w : State) (a : AgentId), f (w.setPool p { w.pool p with bottom := a }) = f w) (own : Option SlotId)
    (u : UnitId) : f (s.offer own p u) = f s := by
  unfold State.offer
  split
  · next visited =>
    obtain ⟨member, _⟩ := visited
    refine State.stageC_keeps law (fun q pool => ?_) (fun q pool => ?_) own
    · obtain rfl := Option.some.inj (member.symm.trans pool)
      exact kept
    · obtain rfl := Option.some.inj (member.symm.trans pool)
      exact bottom
  · rfl

theorem State.poolPass_keeps {s : State} {p : PoolId} (law : QueueLaw s) (kept : KeptByGrants f (.pool p))
    (bottom : ∀ (w : State) (a : AgentId), f (w.setPool p { w.pool p with bottom := a }) = f w)
    (own : Option SlotId) : f (s.poolPass own p) = f s := by
  unfold State.poolPass
  generalize allUnits = us
  induction us generalizing s with
  | nil => rfl
  | cons u us ih =>
    exact (ih ((s.offer_chain own p u).keeps_queueLaw law)).trans (State.offer_keeps law kept bottom own u)

end Granted

theorem keptByGrants_unit {x : Target} {v : UnitId} (apart : x ≠ .unit v) : KeptByGrants (·.unit v) x := by
  intro s own u i a wait
  obtain ⟨r, found, _, d, c, standing⟩ := State.wait_eq_some.mp wait
  exact (s.grant_unit own u i r x d c found standing v).trans (if_neg apart)

theorem keptByGrants_pool {x : Target} {p : PoolId} (apart : x ≠ .pool p) : KeptByGrants (·.pool p) x := by
  intro s own u i a wait
  obtain ⟨r, found, _, d, c, standing⟩ := State.wait_eq_some.mp wait
  exact (s.grant_pool own u i r x d c found standing p).trans (if_neg apart)

theorem State.unitPass_unit_of_ne {s : State} {u v : UnitId} (law : QueueLaw s) (apart : v ≠ u) (own : Option SlotId) :
    (s.unitPass own u).unit v = s.unit v :=
  State.unitPass_keeps (f := (·.unit v)) law (keptByGrants_unit fun same => apart (Target.unit.inj same).symm)
    (fun _ _ => keptByGrants_unit nofun) (fun w r => (w.unit_setUnit u r v).trans (if_neg apart)) (fun _ _ _ _ => rfl)
    (fun w i => by simp) own

theorem State.unitPass_pool_of_ne {s : State} {u : UnitId} {p : PoolId} (law : QueueLaw s)
    (outside : (s.unit u).config.pool ≠ some p) (own : Option SlotId) : (s.unitPass own u).pool p = s.pool p := by
  have apart {q : PoolId} (member : (s.unit u).config.pool = some q) : p ≠ q := fun same => outside (same ▸ member)
  exact State.unitPass_keeps (f := (·.pool p)) law (keptByGrants_pool nofun)
    (fun q member => keptByGrants_pool fun same => apart member (Target.pool.inj same).symm) (fun _ _ => rfl)
    (fun q member w a => (w.pool_setPool q _ p).trans (if_neg (apart member))) (fun w i => by simp) own

theorem State.poolPass_unit {s : State} (law : QueueLaw s) (p : PoolId) (own : Option SlotId) (v : UnitId) :
    (s.poolPass own p).unit v = s.unit v :=
  State.poolPass_keeps (f := (·.unit v)) law (keptByGrants_unit nofun) (fun _ _ => rfl) own

theorem State.poolPass_pool_of_ne {s : State} {p q : PoolId} (law : QueueLaw s) (apart : q ≠ p) (own : Option SlotId) :
    (s.poolPass own p).pool q = s.pool q :=
  State.poolPass_keeps (f := (·.pool q)) law (keptByGrants_pool fun same => apart (Target.pool.inj same).symm)
    (fun w _ => (w.pool_setPool p _ q).trans (if_neg apart)) own

theorem State.passOn_record (s : State) (own : Option SlotId) (x : Target) {i : SlotId} {r : Record}
    (found : s.record i = some r) :
    (s.passOn own x).record i = some r ∨ (s.passOn own x).record i = some { r with mode := .exclusive } ∨
      ∃ u tt d c, r.standing = .waiting tt d c ∧ s.eligible i u = true ∧ (s.passOn own x).record i =
        some { r with standing := .held u 1 (effectiveDuration d (s.unit u).config.limit) } := by
  have granted {t : State} (h : GrantedOrSame s t i) : t.record i = some r ∨
      ∃ u tt d c, r.standing = .waiting tt d c ∧ s.eligible i u = true ∧
        t.record i = some { r with standing := .held u 1 (effectiveDuration d (s.unit u).config.limit) } := by
    rcases h with same | ⟨q, u, y, d, c, before, standing, eligible, after⟩
    · exact .inl (same.trans found)
    · cases found.symm.trans before
      exact .inr ⟨u, y, d, c, standing, eligible, after⟩
  cases x with
  | pool p => exact (granted (s.poolPass_grantedOrSame own p i)).imp id .inr
  | unit u =>
    rcases s.unitPass_record own u i with same | ⟨q, before, _, after⟩
    · exact (granted same).imp id .inr
    · cases found.symm.trans before
      exact .inr (.inl after)

/-- Settles O50: the fields one by one, from what a grant writes; the records from what a pass does to one record. -/
theorem passFrame : Obligations.PassFrame := by
  intro s t own x passed
  subst passed
  have kept {α : Type} (f : State → α) (units : ∀ s u r, f (State.setUnit s u r) = f s)
      (pools : ∀ s p r, f (State.setPool s p r) = f s) (slots : ∀ s i r, f (State.setSlot s i r) = f s)
      (timers : ∀ s i, f (State.setTimer s (s.timer.spoil i)) = f s)
      (notices : ∀ s a es, f (State.setNotice s a { s.notice a with entries := es }) = f s) :
      f (s.passOn own x) = f s := State.passOn_unwritten f units pools slots timers notices s own x
  refine ⟨kept State.agents ?_ ?_ ?_ ?_ ?_, kept State.stations ?_ ?_ ?_ ?_ ?_, s.passOn_control own x,
    s.passOn_configuration own x, s.passOn_frozen own x, s.passOn_drained own x, s.passOn_detached own x,
    kept State.controlAttention ?_ ?_ ?_ ?_ ?_, s.passOn_supervisor own x, s.passOn_inReset own x,
    kept State.port ?_ ?_ ?_ ?_ ?_, kept State.pending ?_ ?_ ?_ ?_ ?_, kept (·.timer.count) ?_ ?_ ?_ ?_ ?_,
    kept (·.timer.reference) ?_ ?_ ?_ ?_ ?_, s.passOn_serial own x, s.passOn_unitState own x, ?unit, ?pool,
    s.passOn_attention own x, fun i r found => s.passOn_record own x found⟩
  case unit =>
    rintro u rfl law
    exact ⟨fun v apart => State.unitPass_unit_of_ne law apart own,
      fun p outside => State.unitPass_pool_of_ne law outside own⟩
  case pool =>
    rintro p rfl law
    exact ⟨Vector.ext fun i h => State.poolPass_unit law p own ⟨i, h⟩,
      fun q apart => State.poolPass_pool_of_ne law apart own⟩
  all_goals intros; rfl

end Sys2Proof.Machine
end

section
/-! SUPPORT. The end of a record's place (spec/02 R6 to R8, R14, R29, R35): what the pass and the drain's end that a
departure calls make of the slot it leaves and of the other records; the statements on retirement and spending. -/

namespace Sys2Proof.Machine

/-! ### What a pass keeps -/

section Keeps

variable {P : State → Prop} (grant : ∀ s own u i, P s → State.eligible s i u = true → P (State.grant s own u i))
  (unitBottom : ∀ s u a, P s → P (State.setUnit s u { s.unit u with bottom := a }))
  (poolBottom : ∀ s p a, P s → P (State.setPool s p { s.pool p with bottom := a }))
  (upgrade : ∀ s u i, P s → State.holders s u = [i] → P (((State.clearMark s u).setMode i .exclusive).post .upgraded i))

include grant in
theorem stageBWalk_keepsAll (own : Option SlotId) (u : UnitId) (is : List SlotId) {s : State} (last : Option AgentId)
    (start : P s) : P (stageBWalk own u is s last).1 := by
  induction is generalizing s last with
  | nil => exact start
  | cons i is ih =>
    rw [stageBWalk]
    split
    · next eligible =>
      split
      · exact ih _ (grant s own u i start eligible)
      · exact start
    · exact ih last start

include grant unitBottom in
theorem State.stageB_keepsAll (own : Option SlotId) (u : UnitId) {s : State} (start : P s) : P (s.stageB own u) := by
  have walk := stageBWalk_keepsAll grant own u (s.rank (s.unit u).config.order (s.unit u).bottom (s.unit u).queue)
    none start
  unfold State.stageB
  dsimp only
  split
  · next walked => rw [walked] at walk; exact walk
  · next walked =>
    rw [walked] at walk
    split
    · exact unitBottom _ u _ walk
    · exact walk

include grant poolBottom in
theorem State.stageC_keepsAll (own : Option SlotId) (u : UnitId) {s : State} (start : P s) : P (s.stageC own u) := by
  unfold State.stageC
  split
  · exact start
  · next p _ =>
    dsimp only
    split
    · exact start
    · next i first =>
      have granted := grant s own u i start (List.find?_some (p := fun i => s.eligible i u) first)
      split
      · exact granted
      · split
        · exact poolBottom _ p _ granted
        · exact granted

include grant unitBottom poolBottom upgrade in
/-- What every grant of an eligible waiter, every bottom agent's move and every upgrade of a sole holder keeps, a pass
keeps. -/
theorem State.passOn_keepsAll (own : Option SlotId) (x : Target) {s : State} (start : P s) : P (s.passOn own x) := by
  cases x with
  | unit u =>
    show P (s.unitPass own u)
    by_cases opened : (s.unit u).state = .opened
    · cases mark : (s.unit u).mark with
      | some i =>
        rw [State.unitPass_of_mark opened mark]
        split
        · next alone => exact upgrade s u i start alone
        · exact start
      | none =>
        rw [State.unitPass_of_unmarked opened mark]
        have b := State.stageB_keepsAll grant unitBottom own u start
        split
        · exact State.stageC_keepsAll grant poolBottom own u b
        · exact b
    · rw [State.unitPass_of_ne_opened opened]
      exact start
  | pool p =>
    show P (s.poolPass own p)
    unfold State.poolPass
    generalize allUnits = us
    induction us generalizing s with
    | nil => exact start
    | cons u us ih =>
      refine ih ?_
      show P (s.offer own p u)
      unfold State.offer
      split
      · exact State.stageC_keepsAll grant poolBottom own u start
      · exact start

end Keeps

/-- No pass adds a slot to a unit's queue. -/
theorem State.passOn_absent_unit (own : Option SlotId) (x : Target) {s : State} {i : SlotId} {v : UnitId}
    (absent : i ∉ (s.unit v).queue) : i ∉ ((s.passOn own x).unit v).queue := by
  refine State.passOn_keepsAll (P := fun s => i ∉ (s.unit v).queue) (fun s own u j absent eligible => ?_)
    (fun s u a absent => ?_) (fun _ _ _ => id) (fun s u j absent _ => ?_) own x absent
  · obtain ⟨r, y, d, c, found, waits, _⟩ := (s.eligible_iff j u).mp eligible
    rw [s.grant_unit own u j r y d c found waits]
    split
    · exact fun mem => absent (List.mem_of_mem_filter mem)
    · exact absent
  · rw [State.unit_setUnit]
    split
    · next same => exact same ▸ absent
    · exact absent
  · rw [State.post_unit, State.setMode_unit, State.clearMark_unit]
    split <;> exact absent

/-- No pass adds a slot to a pool's queue. -/
theorem State.passOn_absent_pool (own : Option SlotId) (x : Target) {s : State} {i : SlotId} {q : PoolId}
    (absent : i ∉ (s.pool q).queue) : i ∉ ((s.passOn own x).pool q).queue := by
  refine State.passOn_keepsAll (P := fun s => i ∉ (s.pool q).queue) (fun s own u j absent eligible => ?_)
    (fun _ _ _ => id) (fun s p a absent => ?_) (fun s u j absent _ => ?_) own x absent
  · obtain ⟨r, y, d, c, found, waits, _⟩ := (s.eligible_iff j u).mp eligible
    rw [s.grant_pool own u j r y d c found waits]
    split
    · exact fun mem => absent (List.mem_of_mem_filter mem)
    · exact absent
  · rw [State.pool_setPool]
    split
    · next same => exact same ▸ absent
    · exact absent
  · simpa using absent

/-! ### A record that neither waits nor holds -/

/-- The slot's record, if any, is SPENT: it neither waits nor holds. -/
structure Settled (s : State) (i : SlotId) : Prop where
  wait : s.wait i = none
  holding : s.holding i = none

theorem Settled.ne_of_eligible {s : State} {i j : SlotId} (settled : Settled s i) {u : UnitId}
    (eligible : s.eligible j u = true) : i ≠ j := by
  rintro rfl
  obtain ⟨w, waits⟩ := State.wait_of_eligible eligible
  exact nomatch settled.wait.symm.trans waits

theorem Settled.ne_of_sole {s : State} {i j : SlotId} (settled : Settled s i) {u : UnitId}
    (alone : s.holders u = [j]) : i ≠ j := by
  rintro rfl
  exact nomatch settled.holding.symm.trans ((s.mem_holders_iff_holding u i).mp (alone ▸ List.mem_singleton_self i))

theorem Settled.of_record {s t : State} {i : SlotId} (settled : Settled s i) (same : t.record i = s.record i) :
    Settled t i :=
  ⟨(State.wait_congr same).trans settled.wait, (State.holding_congr same).trans settled.holding⟩

/-- A post about another record leaves the entries for this one. -/
theorem mem_postEntry_iff_of_ne {entries : List Notice} {m n : Notice} (apart : m.handle ≠ n.handle) :
    m ∈ postEntry entries n ↔ m ∈ entries := by
  unfold postEntry
  split
  · have handle (e : Notice) : (if e.handle = n.handle then { e with kind := n.kind } else e : Notice).handle = e.handle := by
      split <;> rfl
    rw [List.mem_map]
    constructor
    · rintro ⟨e, mem, rfl⟩
      rw [handle] at apart
      rwa [if_neg apart]
    · exact fun mem => ⟨m, mem, if_neg apart⟩
  · have other : m ≠ n := fun same => apart (congrArg Notice.handle same)
    simp [other]

theorem State.mem_post_of_ne {s : State} {k : NoticeKind} {i j : SlotId} {b : AgentId} {n : Notice} (apart : i ≠ j)
    (own : n.handle.slot = i) : n ∈ ((s.post k j).notice b).entries ↔ n ∈ (s.notice b).entries := by
  rw [State.post_notice]
  split
  · rfl
  · split
    · exact mem_postEntry_iff_of_ne fun same => apart (own.symm.trans (congrArg Handle.slot same))
    · rfl

/-- From s to t the record of slot i and its agents' entries for it are as they were. -/
structure Untouched (s t : State) (i : SlotId) : Prop where
  record : t.record i = s.record i
  entries : ∀ b n, n.handle.slot = i → (n ∈ (t.notice b).entries ↔ n ∈ (s.notice b).entries)

theorem Untouched.refl (s : State) (i : SlotId) : Untouched s s i := ⟨rfl, fun _ _ _ => Iff.rfl⟩

theorem Untouched.trans {s t w : State} {i : SlotId} (first : Untouched s t i) (next : Untouched t w i) :
    Untouched s w i :=
  ⟨next.record.trans first.record, fun b n own => (next.entries b n own).trans (first.entries b n own)⟩

theorem Settled.grant {s : State} {i j : SlotId} {u : UnitId} (settled : Settled s i) (own : Option SlotId)
    (eligible : s.eligible j u = true) : Untouched s (s.grant own u j) i := by
  have apart := settled.ne_of_eligible eligible
  obtain ⟨r, y, d, c, found, waits, _⟩ := (s.eligible_iff j u).mp eligible
  refine ⟨(s.grant_record own u j r y d c found waits i).trans (if_neg apart), fun b n about => ?_⟩
  rw [s.grant_notice own u j r y d c found waits]
  split
  · exact mem_postEntry_iff_of_ne fun same => apart (about.symm.trans (congrArg Handle.slot same))
  · rfl

/-- A pass touches no record that neither waits nor holds, and no entry for it. -/
theorem Settled.passOn {s : State} {i : SlotId} (settled : Settled s i) (own : Option SlotId) (x : Target) :
    Untouched s (s.passOn own x) i := by
  have here : ∀ w, Untouched s w i → Settled w i := fun w same => settled.of_record same.record
  refine State.passOn_keepsAll (P := fun w => Untouched s w i)
    (fun w own u j same eligible => same.trans ((here w same).grant own eligible)) (fun _ _ _ same => ⟨same.1, same.2⟩)
    (fun _ _ _ same => ⟨same.1, same.2⟩) (fun w u j same alone => ?_) own x (.refl s i)
  have apart := (here w same).ne_of_sole alone
  refine same.trans ⟨?_, fun b n about => ?_⟩
  · rw [State.post_record, State.setMode_record, if_neg apart, State.clearMark_record]
  · rw [State.mem_post_of_ne apart about, State.setMode_notice, State.clearMark_notice]

theorem Settled.afterDeparture {s : State} {i : SlotId} (settled : Settled s i) (r : Record) :
    Untouched s (s.afterDeparture r) i :=
  State.afterDeparture_keeps (P := fun w => Untouched s w i)
    (fun w own x same => same.trans ((settled.of_record same.record).passOn own x))
    (fun w u same => ⟨by simpa using same.record, fun b n own => by simpa using same.entries b n own⟩) r (.refl s i)

end Sys2Proof.Machine
end

section
/-! SUPPORT. The statements on retirement and spending (spec/02 R29, R35; spec/09 R162). -/

namespace Sys2Proof.Machine

/-! ### Two sets and a count -/

theorem Vector.get_set_iff {n : Nat} (v : Vector Bool n) (i j : Fin n) (x : Bool) :
    (v.set i.val x i.isLt).get j = if j = i then x else v.get j := by
  simp only [Vector.get_eq_getElem, Vector.getElem_set, Fin.ext_iff, eq_comm]

theorem State.addDrained_get (s : State) (u v : UnitId) :
    (s.addDrained u).drained.get v = if v = u then true else s.drained.get v :=
  Vector.get_set_iff s.drained u v true

theorem State.addDetached_get (s : State) (a b : AgentId) :
    (s.addDetached a).detached.get b = (s.detached.get b || decide (b = a)) := by
  refine (Vector.get_set_iff s.detached a b true).trans ?_
  by_cases same : b = a <;> simp [same]

/-- A record count is the count without one slot, and that slot. -/
theorem State.recordCount_split (s : State) (a : AgentId) (i : SlotId) :
    s.recordCount a = (allSlots.filter fun j => !(j == i)).countP (fun j => s.owner j == some a) +
      if s.owner i = some a then 1 else 0 := by
  have once : allSlots.filter (· == i) = [i] := by
    have one : allSlots.count i = 1 := List.count_eq_one_of_mem (List.nodup_finRange 96) (List.mem_finRange i)
    rw [List.filter_beq, one]
    rfl
  rw [State.recordCount, List.countP_eq_countP_filter_add allSlots _ (· == i), once, Nat.add_comm]
  congr 1
  simp [List.countP_cons]

/-- Where the records of all other slots keep their agents, the count of each agent follows the one slot. -/
theorem State.recordCount_of_others {s t : State} {i : SlotId} (owner : ∀ j, j ≠ i → t.owner j = s.owner j)
    (a : AgentId) :
    t.recordCount a + (if s.owner i = some a then 1 else 0) = s.recordCount a + if t.owner i = some a then 1 else 0 := by
  have rest : (allSlots.filter fun j => !(j == i)).countP (fun j => t.owner j == some a) =
      (allSlots.filter fun j => !(j == i)).countP fun j => s.owner j == some a :=
    List.countP_congr fun j mem => by rw [owner j (by simpa using (List.mem_filter.mp mem).2)]
  rw [t.recordCount_split a i, s.recordCount_split a i, rest]
  omega

/-! ### A place that is left -/

/-- p is s with the record r of slot i out of its place, and `left`, which neither waits nor holds, in the slot. -/
structure Vacated (s p : State) (i : SlotId) (r : Record) (left : Option Record) : Prop where
  found : s.record i = some r
  record : ∀ j, p.record j = if j = i then left else s.record j
  unit : ∀ v, p.unit v = (s.leavePlace i r).unit v
  pool : ∀ q, p.pool q = (s.leavePlace i r).pool q
  drained : p.drained = s.drained
  settled : Settled p i

section Departure

variable {s p : State} {i : SlotId} {r : Record} {left : Option Record}

theorem Vacated.unit_state (vacated : Vacated s p i r left) (v : UnitId) : (p.unit v).state = (s.unit v).state := by
  rw [vacated.unit, State.leavePlace_unit]

theorem Vacated.unit_config (vacated : Vacated s p i r left) (v : UnitId) : (p.unit v).config = (s.unit v).config := by
  rw [vacated.unit, State.leavePlace_unit]

theorem Vacated.record_of_ne (vacated : Vacated s p i r left) {j : SlotId} (apart : j ≠ i) : p.record j = s.record j :=
  (vacated.record j).trans (if_neg apart)

theorem Vacated.holding_of_ne (vacated : Vacated s p i r left) {j : SlotId} (apart : j ≠ i) :
    p.holding j = s.holding j :=
  State.holding_congr (vacated.record_of_ne apart)

theorem Vacated.holders_eq_nil_iff (vacated : Vacated s p i r left) (u : UnitId) :
    p.holders u = [] ↔ ∀ j, j ≠ i → s.holding j ≠ some u := by
  rw [List.eq_nil_iff_forall_not_mem]
  refine forall_congr' fun j => ?_
  rw [State.mem_holders_iff_holding]
  by_cases same : j = i
  · simp [same, vacated.settled.holding]
  · simp [same, vacated.holding_of_ne same]

/-- The departure of a holder is its unit's pass and the end of its unit's drain. -/
theorem State.afterDeparture_of_holding (p : State) {u : UnitId} (holds : r.holding = some u) :
    p.afterDeparture r = (p.unitPass none u).completeDrain u := by
  unfold State.afterDeparture
  cases standing : r.standing <;> simp [Record.holding, standing] at holds <;> rw [holds]

theorem State.afterDeparture_of_waiting (p : State) {x : Target} {d : Nat} {c : Option Nat}
    (waits : r.standing = .waiting x d c) : p.afterDeparture r = p.passOn none x := by
  simp [State.afterDeparture, waits]

theorem State.afterDeparture_of_spent (p : State) (spent : r.isSpent = true) : p.afterDeparture r = p := by
  unfold State.afterDeparture
  cases standing : r.standing <;> simp [Record.isSpent, standing] at spent
  rfl

/-- Without a hold given up no unit's state and no drain changes. -/
theorem State.afterDeparture_of_unheld (p : State) (idle : r.holding = none) :
    (∀ v, ((p.afterDeparture r).unit v).state = (p.unit v).state) ∧ (p.afterDeparture r).drained = p.drained := by
  unfold State.afterDeparture
  cases standing : r.standing with
  | waiting x d c => exact ⟨p.passOn_unitState none x, p.passOn_drained none x⟩
  | held u d c => simp [Record.holding, standing] at idle
  | recalled u d c => simp [Record.holding, standing] at idle
  | spent c k => exact ⟨fun _ => rfl, rfl⟩

theorem State.completeDrain_drained (q : State) (u v : UnitId) :
    (q.completeDrain u).drained.get v =
      if v = u ∧ (q.unit u).state = .draining ∧ q.holders u = [] then true else q.drained.get v := by
  unfold State.completeDrain
  by_cases done : (q.unit u).state = .draining ∧ q.holders u = []
  · rw [if_pos ⟨done.1, List.isEmpty_iff.mpr done.2⟩, State.addDrained_get, State.setUnit_drained]
    simp [done]
  · rw [if_neg fun h => done ⟨h.1, List.isEmpty_iff.mp h.2⟩, if_neg fun h => done h.2]

theorem Vacated.freesUnits (vacated : Vacated s p i r left) : FreesUnits s (p.afterDeparture r) i r := by
  refine ⟨fun u holds mark => ?mark, fun u holds draining last => ?last, fun v kept => ?kept⟩
  case mark =>
    have clear : (p.unit u).mark = none := by
      rw [vacated.unit, State.leavePlace_unit]
      exact if_pos ⟨holds, mark⟩
    have passed := p.unitPass_mark none u u clear
    rw [p.afterDeparture_of_holding holds, State.completeDrain_unit]
    split <;> exact passed
  case last =>
    have closed : (p.unit u).state ≠ .opened := by simp [vacated.unit_state, draining]
    have done : (p.unit u).state = .draining ∧ p.holders u = [] :=
      ⟨(vacated.unit_state u).trans draining, (vacated.holders_eq_nil_iff u).mpr last⟩
    rw [p.afterDeparture_of_holding holds, State.unitPass_of_ne_opened closed, State.completeDrain_unit,
      State.completeDrain_drained, if_pos ⟨rfl, done⟩, if_pos ⟨rfl, done⟩]
    exact ⟨rfl, rfl⟩
  case kept =>
    cases holds : r.holding with
    | none =>
      obtain ⟨state, drained⟩ := p.afterDeparture_of_unheld holds
      rw [state, drained, vacated.drained]
      exact ⟨vacated.unit_state v, rfl⟩
    | some u =>
      have undone : ¬ (v = u ∧ (p.unit v).state = .draining ∧ p.holders v = []) := by
        rintro ⟨rfl, draining, free⟩
        rcases kept with other | other | ⟨j, apart, held⟩
        · exact other holds
        · exact other ((vacated.unit_state v).symm.trans draining)
        · exact (vacated.holders_eq_nil_iff v).mp free j apart held
      have passed : ¬ (v = u ∧ ((p.unitPass none u).unit v).state = .draining ∧ (p.unitPass none u).holders v = []) := by
        rintro ⟨rfl, draining, free⟩
        have before : (p.unit v).state = .draining := (p.passOn_unitState none (.unit v) v).symm.trans draining
        rw [State.unitPass_of_ne_opened (by simp [before])] at free
        exact undone ⟨rfl, before, free⟩
      rw [p.afterDeparture_of_holding holds, State.completeDrain_unit, State.completeDrain_drained, if_neg passed,
        if_neg fun done => passed (by obtain ⟨rfl, done⟩ := done; exact ⟨rfl, done⟩)]
      refine ⟨(p.passOn_unitState none (.unit u) v).trans (vacated.unit_state v), ?_⟩
      exact congrArg (·.get v) ((p.passOn_drained none (.unit u)).trans vacated.drained)

/-- What a departure makes of one record: a waiter is granted, or a sole holder becomes EXCLUSIVE. -/
theorem State.afterDeparture_record (p : State) (r : Record) (j : SlotId) :
    GrantedOrSame p (p.afterDeparture r) j ∨
      ∃ q, p.record j = some q ∧ (p.afterDeparture r).record j = some { q with mode := .exclusive } := by
  have holder (u : UnitId) : GrantedOrSame p ((p.unitPass none u).completeDrain u) j ∨
      ∃ q, p.record j = some q ∧ ((p.unitPass none u).completeDrain u).record j = some { q with mode := .exclusive } := by
    rw [GrantedOrSame, State.completeDrain_record]
    exact (p.unitPass_record none u j).imp id fun ⟨q, found, _, after⟩ => ⟨q, found, after⟩
  unfold State.afterDeparture
  split
  · next x _ _ _ =>
    cases x with
    | unit u => exact (p.unitPass_record none u j).imp id fun ⟨q, found, _, after⟩ => ⟨q, found, after⟩
    | pool k => exact .inl (p.poolPass_grantedOrSame none k j)
  · exact holder _
  · exact holder _
  · exact .inl (.inl rfl)

theorem Vacated.othersStand (vacated : Vacated s p i r left) : OthersStand s (p.afterDeparture r) i := by
  refine ⟨fun j q apart after => ?_, fun j apart stands gone => ?_⟩
  · have before : p.record j = s.record j := vacated.record_of_ne apart
    rcases p.afterDeparture_record r j with (same | ⟨w, u, x, d, c, found, waits, _, granted⟩) | ⟨w, found, upgraded⟩
    · exact .inl (before.symm.trans (same.symm.trans after))
    · obtain rfl := Option.some.inj (granted.symm.trans after)
      rw [vacated.unit_config]
      exact .inr (.inr ⟨u, x, d, c, rfl, by rw [← before, found, ← waits]⟩)
    · obtain rfl := Option.some.inj (upgraded.symm.trans after)
      cases mode : w.mode with
      | shared => exact .inr (.inl (by rw [← before, found, ← mode]))
      | exclusive => exact .inl (by rw [← before, found, ← mode])
  · have before : p.record j = s.record j := vacated.record_of_ne apart
    rcases p.afterDeparture_record r j with (same | ⟨_, _, _, _, _, _, _, _, granted⟩) | ⟨_, _, upgraded⟩
    · exact stands (before.symm.trans (same.symm.trans gone))
    · exact nomatch granted.symm.trans gone
    · exact nomatch upgraded.symm.trans gone

/-- A departure changes no record's agent. -/
theorem State.afterDeparture_owner (p : State) (r : Record) (j : SlotId) : (p.afterDeparture r).owner j = p.owner j := by
  rcases p.afterDeparture_record r j with (same | ⟨w, u, x, d, c, found, _, _, granted⟩) | ⟨w, found, upgraded⟩
  · exact State.owner_congr same
  · simp [State.owner, found, granted]
  · simp [State.owner, found, upgraded]

theorem Vacated.record_left (vacated : Vacated s p i r left) : (p.afterDeparture r).record i = left :=
  (vacated.settled.afterDeparture r).record.trans ((vacated.record i).trans (if_pos rfl))

theorem Vacated.recordCount_of_ne (vacated : Vacated s p i r left) (agent : ∀ q, left = some q → q.agent = r.agent)
    {a : AgentId} (other : a ≠ r.agent) : (p.afterDeparture r).recordCount a = s.recordCount a := by
  have owner (j : SlotId) (apart : j ≠ i) : (p.afterDeparture r).owner j = s.owner j :=
    (p.afterDeparture_owner r j).trans (State.owner_congr (vacated.record_of_ne apart))
  have before : s.owner i ≠ some a := by simp [State.owner, vacated.found, Ne.symm other]
  have after : (p.afterDeparture r).owner i ≠ some a := by
    rw [State.owner, vacated.record_left]
    cases left with
    | none => exact nofun
    | some q => simp [agent q rfl, Ne.symm other]
  have count := State.recordCount_of_others owner a
  rwa [if_neg before, if_neg after] at count

theorem Vacated.recordCount_gone (vacated : Vacated s p i r none) :
    (p.afterDeparture r).recordCount r.agent + 1 = s.recordCount r.agent := by
  have owner (j : SlotId) (apart : j ≠ i) : (p.afterDeparture r).owner j = s.owner j :=
    (p.afterDeparture_owner r j).trans (State.owner_congr (vacated.record_of_ne apart))
  have before : s.owner i = some r.agent := by simp [State.owner, vacated.found]
  have after : (p.afterDeparture r).owner i ≠ some r.agent := by simp [State.owner, vacated.record_left]
  have count := State.recordCount_of_others owner r.agent
  rwa [if_pos before, if_neg after] at count

theorem Vacated.recordCount_kept {q : Record} (vacated : Vacated s p i r (some q)) (agent : q.agent = r.agent)
    (a : AgentId) : (p.afterDeparture r).recordCount a = s.recordCount a := by
  by_cases same : a = r.agent
  · subst same
    have owner (j : SlotId) (apart : j ≠ i) : (p.afterDeparture r).owner j = s.owner j :=
      (p.afterDeparture_owner r j).trans (State.owner_congr (vacated.record_of_ne apart))
    have before : s.owner i = some r.agent := by simp [State.owner, vacated.found]
    have after : (p.afterDeparture r).owner i = some r.agent := by simp [State.owner, vacated.record_left, agent]
    have count := State.recordCount_of_others owner r.agent
    rw [if_pos before, if_pos after] at count
    exact Nat.add_right_cancel count
  · exact vacated.recordCount_of_ne (fun _ h => Option.some.inj h ▸ agent) same

theorem Vacated.unit_queue (vacated : Vacated s p i r left) {d : Nat} {c : Option Nat} {u : UnitId}
    (waits : r.standing = .waiting (.unit u) d c) : i ∉ ((p.afterDeparture r).unit u).queue := by
  have absent : i ∉ (p.unit u).queue := by
    rw [vacated.unit, State.leavePlace, waits]
    simp [State.dequeue_unit]
  rw [p.afterDeparture_of_waiting waits]
  exact State.passOn_absent_unit none _ absent

theorem Vacated.pool_queue (vacated : Vacated s p i r left) {d : Nat} {c : Option Nat} {q : PoolId}
    (waits : r.standing = .waiting (.pool q) d c) : i ∉ ((p.afterDeparture r).pool q).queue := by
  have absent : i ∉ (p.pool q).queue := by
    rw [vacated.pool, State.leavePlace, waits]
    simp [State.dequeue_pool]
  rw [p.afterDeparture_of_waiting waits]
  exact State.passOn_absent_pool none _ absent

end Departure

/-! ### What a departure does not write -/

section Unwritten

variable {α : Type} (f : State → α) (units : ∀ s u r, f (State.setUnit s u r) = f s)
  (pools : ∀ s p r, f (State.setPool s p r) = f s) (slots : ∀ s i r, f (State.setSlot s i r) = f s)
  (timers : ∀ s i, f (State.setTimer s (s.timer.spoil i)) = f s)
  (notices : ∀ s a es, f (State.setNotice s a { s.notice a with entries := es }) = f s)
  (drained : ∀ s u, f (State.addDrained s u) = f s)

include units pools slots timers notices drained in
theorem State.afterDeparture_unwritten (s : State) (r : Record) : f (s.afterDeparture r) = f s := by
  refine s.afterDeparture_same f (State.passOn_unwritten f units pools slots timers notices) (fun s u => ?_) r
  unfold State.completeDrain
  split
  · exact (drained _ u).trans (units s u _)
  · rfl

include units pools in
theorem State.leavePlace_unwritten (s : State) (i : SlotId) (r : Record) : f (s.leavePlace i r) = f s := by
  have clear (u : UnitId) : f (s.clearMarkOf u i) = f s := by
    unfold State.clearMarkOf
    split
    · exact units s u _
    · rfl
  unfold State.leavePlace
  split
  · exact State.dequeue_unwritten f units pools s _ i
  · exact clear _
  · exact clear _
  · rfl

end Unwritten

end Sys2Proof.Machine
end

section
/-! SUPPORT. The statements on the retirement and the spending of a record (spec/02 R29, R35; spec/08 R145). -/

namespace Sys2Proof.Machine

/-! ### The end of a walk -/

section Walk

variable {s : State} {a : AgentId}

theorem State.endWalk_of_done (walks : (s.agent a).state = .detaching) (zero : s.recordCount a = 0) :
    s.endWalk a =
      ((s.setAgent a { s.agent a with state := .detached, held := false }).answer a (.ok 0 0)).addDetached a :=
  if_pos ⟨(s.busy_iff a).mpr walks, zero⟩

theorem State.endWalk_of_left (left : (s.agent a).state ≠ .detaching ∨ s.recordCount a ≠ 0) : s.endWalk a = s :=
  if_neg fun ⟨busy, zero⟩ => left.elim (fun idle => idle ((s.busy_iff a).mp busy)) fun more => more zero

theorem State.endWalk_of_other (s : State) {a b : AgentId} (other : b ≠ a) :
    (s.endWalk a).agent b = s.agent b ∧ (s.endWalk a).station b = s.station b := by
  refine ⟨by rw [State.endWalk_agent, if_neg fun h => other h.1], ?_⟩
  unfold State.endWalk
  split
  · simp [State.answer, State.station_setStation, other]
  · rfl

end Walk

/-! ### Retirement -/

/-- The removal without the end of the walk. -/
def State.unplaced (s : State) (i : SlotId) (r : Record) : State :=
  ((s.leavePlace i r).withdrawEntry r.agent i).loadRecord i none

theorem State.remove_eq (s : State) (i : SlotId) (r : Record) : s.remove i r = (s.unplaced i r).endWalk r.agent := rfl

theorem State.unplaced_agent (s : State) (i : SlotId) (r : Record) (a : AgentId) :
    (s.unplaced i r).agent a = s.agent a := by simp [State.unplaced]

theorem State.unplaced_station (s : State) (i : SlotId) (r : Record) (a : AgentId) :
    (s.unplaced i r).station a = s.station a := by simp [State.unplaced]

theorem State.unplaced_detached (s : State) (i : SlotId) (r : Record) : (s.unplaced i r).detached = s.detached := by
  simp [State.unplaced]

theorem State.unplaced_record (s : State) (i : SlotId) (r : Record) (j : SlotId) :
    (s.unplaced i r).record j = if j = i then none else s.record j := by
  simp [State.unplaced, State.record_loadRecord]

theorem State.unplaced_recordCount {s : State} {i : SlotId} {r : Record} (found : s.record i = some r) :
    (s.unplaced i r).recordCount r.agent + 1 = s.recordCount r.agent := by
  have owner (j : SlotId) (apart : j ≠ i) : (s.unplaced i r).owner j = s.owner j :=
    State.owner_congr ((s.unplaced_record i r j).trans (if_neg apart))
  have before : s.owner i = some r.agent := by simp [State.owner, found]
  have after : (s.unplaced i r).owner i ≠ some r.agent := by simp [State.owner, State.unplaced_record]
  have count := State.recordCount_of_others owner r.agent
  rwa [if_pos before, if_neg after] at count

/-- Where the record was the last of a DETACHING agent, the agent's walk ends (R145). -/
theorem State.remove_of_last {s : State} {i : SlotId} {r : Record} (found : s.record i = some r)
    (walks : (s.agent r.agent).state = .detaching) (last : s.recordCount r.agent = 1) :
    (s.remove i r).agent r.agent = { s.agent r.agent with state := .detached, held := false } ∧
      (s.remove i r).station r.agent = { s.station r.agent with resp0 := 0, resp1 := 0, stat := 0 } ∧
      ∀ a : AgentId, (s.remove i r).detached.get a = (s.detached.get a || decide (a = r.agent)) := by
  have zero : (s.unplaced i r).recordCount r.agent = 0 := by
    have count := State.unplaced_recordCount found
    omega
  rw [State.remove_eq, State.endWalk_of_done ((s.unplaced_agent i r _).symm ▸ walks) zero]
  refine ⟨?_, ?_, fun a => ?_⟩
  · simp [State.answer, State.unplaced_agent]
  · simp [State.answer, State.unplaced_station]
    rfl
  · rw [State.addDetached_get, State.answer, State.setStation_detached, State.setAgent_detached,
      State.unplaced_detached]

theorem State.remove_of_left {s : State} {i : SlotId} {r : Record} (found : s.record i = some r)
    (left : (s.agent r.agent).state ≠ .detaching ∨ 1 < s.recordCount r.agent) :
    (s.remove i r).agent r.agent = s.agent r.agent ∧ (s.remove i r).station r.agent = s.station r.agent ∧
      (s.remove i r).detached = s.detached := by
  have count := State.unplaced_recordCount found
  have stays : ((s.unplaced i r).agent r.agent).state ≠ .detaching ∨ (s.unplaced i r).recordCount r.agent ≠ 0 :=
    left.imp (fun idle => (s.unplaced_agent i r _).symm ▸ idle) fun more => by omega
  rw [State.remove_eq, State.endWalk_of_left stays]
  exact ⟨s.unplaced_agent i r _, s.unplaced_station i r _, s.unplaced_detached i r⟩

theorem State.remove_of_other (s : State) (i : SlotId) (r : Record) {b : AgentId} (other : b ≠ r.agent) :
    (s.remove i r).agent b = s.agent b ∧ (s.remove i r).station b = s.station b := by
  obtain ⟨agent, station⟩ := (s.unplaced i r).endWalk_of_other other
  exact ⟨agent.trans (s.unplaced_agent i r b), station.trans (s.unplaced_station i r b)⟩

theorem State.remove_vacated {s : State} {i : SlotId} {r : Record} (found : s.record i = some r) :
    Vacated s (s.remove i r) i r none :=
  ⟨found, s.remove_record i r, s.remove_unit i r, s.remove_pool i r, s.remove_drained i r,
    by simp [State.wait, State.remove_record], by simp [State.holding, State.remove_record]⟩

theorem State.retire_of_record {s : State} {i : SlotId} {r : Record} (found : s.record i = some r) :
    s.retire i = (s.remove i r).afterDeparture r := by
  simp only [State.retire, found]

/-- The retired record's entry is withdrawn, and the pass that follows posts none for its slot (R127). -/
theorem State.remove_hasEntry (s : State) (i : SlotId) (r : Record) {n : Notice} (about : n.handle = s.handle i) :
    n ∉ ((s.remove i r).notice r.agent).entries := by
  rw [State.remove_notice, if_pos rfl]
  simp [about]

theorem State.remove_units_of_spent {s : State} {r : Record} (spent : r.isSpent = true) (i : SlotId) :
    (s.remove i r).units = s.units ∧ (s.remove i r).pools = s.pools := by
  have stays : s.leavePlace i r = s := by
    unfold State.leavePlace
    cases standing : r.standing <;> simp [Record.isSpent, standing] at spent
    rfl
  exact ⟨Vector.ext fun u h => (s.remove_unit i r ⟨u, h⟩).trans (congrArg (·.unit ⟨u, h⟩) stays),
    Vector.ext fun q h => (s.remove_pool i r ⟨q, h⟩).trans (congrArg (·.pool ⟨q, h⟩) stays)⟩

/-- Settles O43: the removal, and then what a departure makes of the slot, of the other records and of the units. -/
theorem retirement : Obligations.Retirement := by
  intro s t i r found retired
  have vacated := State.remove_vacated found
  rw [State.retire_of_record found] at retired
  subst retired
  have agents : ((s.remove i r).afterDeparture r).agents = (s.remove i r).agents := by
    apply State.afterDeparture_unwritten State.agents <;> intros <;> rfl
  have stations : ((s.remove i r).afterDeparture r).stations = (s.remove i r).stations := by
    apply State.afterDeparture_unwritten State.stations <;> intros <;> rfl
  have detached : ((s.remove i r).afterDeparture r).detached = (s.remove i r).detached := by
    apply State.afterDeparture_unwritten State.detached <;> intros <;> rfl
  have timer : ((s.remove i r).afterDeparture r).timer.count = (s.remove i r).timer.count ∧
      ((s.remove i r).afterDeparture r).timer.reference = (s.remove i r).timer.reference := by
    constructor
    · apply State.afterDeparture_unwritten (·.timer.count) <;> intros <;> rfl
    · apply State.afterDeparture_unwritten (·.timer.reference) <;> intros <;> rfl
  have untouched := vacated.settled.afterDeparture r
  have serial (j : SlotId) : (((s.remove i r).afterDeparture r).slot j).serial = (s.slot j).serial :=
    (State.afterDeparture_same (fun s => (s.slot j).serial) (by simp) (by simp) _ r).trans (s.remove_serial i r j)
  refine ⟨⟨s.remove i r, s.remove_leavesPlace i r, s.remove_notice i r, State.remove_of_last found,
      State.remove_of_left found, fun b => s.remove_of_other i r, State.afterDeparture_departs _ r, agents, stations,
      detached⟩, vacated.freesUnits, vacated.othersStand, vacated.record_left, serial, ?entry,
    vacated.recordCount_gone, fun b other => ⟨vacated.recordCount_of_ne nofun other, ?_, ?_⟩,
    fun d c u => vacated.unit_queue, fun d c q => vacated.pool_queue, ?configuration, ?_, ?_, ?_, ?_, ?_, ?_, ?_,
    timer.1.trans (by rw [s.remove_timer]; rfl),
    timer.2.trans (by rw [s.remove_timer]; rfl), fun spent => ?spent⟩
  case entry =>
    have same : ((s.remove i r).afterDeparture r).handle i = s.handle i := State.handle_of_serial (serial i)
    rw [State.hasEntry, same, List.any_eq_false]
    intro n mem about
    have about : n.handle = s.handle i := eq_of_beq about
    exact s.remove_hasEntry i r about ((untouched.entries r.agent n (congrArg Handle.slot about)).mp mem)
  case configuration =>
    exact (State.afterDeparture_same State.configuration (by simp) (by simp) _ r).trans (s.remove_configuration i r)
  case spent =>
    rw [State.afterDeparture_of_spent _ spent]
    obtain ⟨units, pools⟩ := State.remove_units_of_spent (s := s) spent i
    exact ⟨units, pools, fun j apart => vacated.record_of_ne apart⟩
  · exact (congrArg (·.get b) agents).trans (s.remove_of_other i r other).1
  · exact (congrArg (·.get b) stations).trans (s.remove_of_other i r other).2
  · exact (State.afterDeparture_same State.control (by simp) (by simp) _ r).trans (s.remove_control i r)
  · exact (State.afterDeparture_same State.frozen (by simp) (by simp) _ r).trans (s.remove_frozen i r)
  · exact Eq.trans (by apply State.afterDeparture_unwritten State.controlAttention <;> intros <;> rfl)
      (s.remove_controlAttention i r)
  · exact (State.afterDeparture_same State.supervisor (by simp) (by simp) _ r).trans (s.remove_supervisor i r)
  · exact (State.afterDeparture_same State.inReset (by simp) (by simp) _ r).trans (s.remove_inReset i r)
  · exact Eq.trans (by apply State.afterDeparture_unwritten State.port <;> intros <;> rfl) (s.remove_port i r)
  · exact Eq.trans (by apply State.afterDeparture_unwritten State.pending <;> intros <;> rfl) (s.remove_pending i r)

/-! ### Spending -/

/-- The slot of a record that becomes SPENT, before the notice of its cause is posted. -/
def State.respent (s : State) (i : SlotId) (r : Record) (cause : SpentCause) : State :=
  (s.leavePlace i r).loadRecord i (some { r with standing := .spent r.standing.claim cause })

theorem State.markSpent_eq (s : State) (i : SlotId) (r : Record) (cause : SpentCause) :
    s.markSpent i r cause = (s.respent i r cause).post cause.notice i := rfl

section Unwritten

variable {α : Type} (f : State → α) (units : ∀ s u r, f (State.setUnit s u r) = f s)
  (pools : ∀ s p r, f (State.setPool s p r) = f s) (slots : ∀ s i r, f (State.setSlot s i r) = f s)
  (timers : ∀ s i, f (State.setTimer s (s.timer.spoil i)) = f s)
  (notices : ∀ s a es, f (State.setNotice s a { s.notice a with entries := es }) = f s)
  (drained : ∀ s u, f (State.addDrained s u) = f s) (s : State) (i : SlotId) (r : Record) (cause : SpentCause)

include units pools slots timers in
theorem State.respent_unwritten : f (s.respent i r cause) = f s :=
  (timers ((s.leavePlace i r).writeRecord i _) i).trans
    ((slots _ i _).trans (State.leavePlace_unwritten f units pools s i r))

include units pools slots timers notices drained in
theorem State.markSpent_departure_unwritten : f ((s.markSpent i r cause).afterDeparture r) = f s := by
  rw [State.afterDeparture_unwritten f units pools slots timers notices drained, State.markSpent_eq,
    State.post_unwritten f notices, State.respent_unwritten f units pools slots timers]

end Unwritten

theorem State.spend_of_attached {s : State} {i : SlotId} {r : Record} (found : s.record i = some r)
    (attached : s.isAttached r.agent = true) (cause : SpentCause) :
    s.spend i cause = (s.markSpent i r cause).afterDeparture r := by
  simp only [State.spend, found, if_pos attached]

theorem State.spend_of_away {s : State} {i : SlotId} {r : Record} (found : s.record i = some r)
    (away : s.isAttached r.agent = false) (cause : SpentCause) : s.spend i cause = s.retire i := by
  simp only [State.spend, found, away, Bool.false_eq_true, if_false]

theorem State.markSpent_vacated {s : State} {i : SlotId} {r : Record} (found : s.record i = some r)
    (cause : SpentCause) :
    Vacated s (s.markSpent i r cause) i r (some { r with standing := .spent r.standing.claim cause }) :=
  ⟨found, s.markSpent_record i r cause, s.markSpent_unit i r cause, s.markSpent_pool i r cause,
    s.markSpent_drained i r cause, by simp [State.wait, State.markSpent_record, Record.wait],
    by simp [State.holding, State.markSpent_record, Record.holding]⟩

/-- What a post makes of the entries for its own record: there is one, and each has the kind that is posted (R123, R125). -/
theorem exists_mem_postEntry (entries : List Notice) (n : Notice) :
    ∃ m, m ∈ postEntry entries n ∧ m.handle = n.handle := by
  have mem : n.handle ∈ (postEntry entries n).map Notice.handle := mem_postEntry_handles.mpr (.inr rfl)
  exact List.mem_map.mp mem

theorem kind_of_mem_postEntry {entries : List Notice} {m n : Notice} (mem : m ∈ postEntry entries n)
    (own : m.handle = n.handle) : m.kind = n.kind := by
  unfold postEntry at mem
  split at mem
  · obtain ⟨e, _, rfl⟩ := List.mem_map.mp mem
    by_cases same : e.handle = n.handle
    · rw [if_pos same]
    · rw [if_neg same] at own
      exact absurd own same
  · next fresh =>
    rcases List.mem_append.mp mem with before | last
    · exact absurd (List.any_eq_true (p := fun e => e.handle == n.handle).mpr ⟨m, before, beq_iff_eq.mpr own⟩) fresh
    · rw [List.mem_singleton.mp last]

/-- Settles O44: the record becomes SPENT and its cause is posted; then what a departure makes of the rest. -/
theorem spending : Obligations.Spending := by
  intro s t i r cause found unspent spent
  subst spent
  refine ⟨fun away => State.spend_of_away found away cause, fun attached => ?_⟩
  have vacated := State.markSpent_vacated found cause
  rw [State.spend_of_attached found attached]
  have untouched := vacated.settled.afterDeparture r
  have entries (n : Notice) (about : n.handle = s.handle i) :
      n ∈ (((s.markSpent i r cause).afterDeparture r).notice r.agent).entries ↔
        n ∈ postEntry (s.notice r.agent).entries ⟨cause.notice, s.handle i, r.target⟩ := by
    rw [untouched.entries r.agent n (congrArg Handle.slot about), State.markSpent_notice, if_pos ⟨rfl, attached⟩]
  have serial (j : SlotId) : (((s.markSpent i r cause).afterDeparture r).slot j).serial = (s.slot j).serial :=
    (State.afterDeparture_same (fun s => (s.slot j).serial) (by simp) (by simp) _ r).trans
      (s.markSpent_serial i r cause j)
  refine ⟨⟨s.respent i r cause, s.leavePlace_leavesPlace i r _, ?_, ?_, ?_, ?_, State.afterDeparture_departs _ r⟩,
    vacated.freesUnits, vacated.othersStand, vacated.record_left, serial, ?present, fun n mem about => ?kind,
    fun d c u => vacated.unit_queue, fun d c q => vacated.pool_queue, vacated.recordCount_kept rfl, ?_, ?_, ?_,
    ?configuration, ?_, ?_, ?_, ?_, ?_, ?_, ?_, ?_, ?_⟩
  case present =>
    obtain ⟨n, mem, about⟩ := exists_mem_postEntry (s.notice r.agent).entries ⟨cause.notice, s.handle i, r.target⟩
    exact ⟨n, (entries n about).mpr mem, about, kind_of_mem_postEntry mem about⟩
  case kind => exact kind_of_mem_postEntry ((entries n about).mp mem) about
  case configuration =>
    exact (State.afterDeparture_same State.configuration (by simp) (by simp) _ r).trans
      (s.markSpent_configuration i r cause)
  · apply State.respent_unwritten State.notices <;> intros <;> rfl
  · apply State.respent_unwritten State.agents <;> intros <;> rfl
  · apply State.respent_unwritten State.stations <;> intros <;> rfl
  · apply State.respent_unwritten State.detached <;> intros <;> rfl
  · apply State.markSpent_departure_unwritten State.agents <;> intros <;> rfl
  · apply State.markSpent_departure_unwritten State.stations <;> intros <;> rfl
  · apply State.markSpent_departure_unwritten State.detached <;> intros <;> rfl
  · apply State.markSpent_departure_unwritten State.control <;> intros <;> rfl
  · apply State.markSpent_departure_unwritten State.frozen <;> intros <;> rfl
  · apply State.markSpent_departure_unwritten State.controlAttention <;> intros <;> rfl
  · apply State.markSpent_departure_unwritten State.supervisor <;> intros <;> rfl
  · apply State.markSpent_departure_unwritten State.inReset <;> intros <;> rfl
  · apply State.markSpent_departure_unwritten State.port <;> intros <;> rfl
  · apply State.markSpent_departure_unwritten State.pending <;> intros <;> rfl
  · apply State.markSpent_departure_unwritten (·.timer.count) <;> intros <;> rfl
  · apply State.markSpent_departure_unwritten (·.timer.reference) <;> intros <;> rfl

end Sys2Proof.Machine
end

section
/-! SUPPORT. DETACH and DETACH_AGENT, and what the beginning of a walk makes of the state (spec/08 R132, R139 to R141):
the statement on them. -/

namespace Sys2Proof.Machine

/-! ### The beginning of a walk -/

section BeginWalk

variable (s : State) (a : AgentId)

/-- The walk of agent a begun, before the test whether it is over at once. -/
def State.walking (s : State) (a : AgentId) : State :=
  let s := (s.setAgent a { s.agent a with state := .detaching }).answer a (.ok 0 0)
  let s := s.setNotice a { s.notice a with entries := [] }
  (s.spentOf a).foldl (fun s i => s.loadRecord i none) s

theorem State.beginWalk_eq : s.beginWalk a = (s.walking a).endWalk a := rfl

/-- What neither the agent, its station, its notices nor an emptied slot shows is as before. -/
theorem State.walking_same {α : Type} (f : State → α) (agent : ∀ s r, f (State.setAgent s a r) = f s)
    (station : ∀ s st, f (State.setStation s a st) = f s) (notice : ∀ s q, f (State.setNotice s a q) = f s)
    (slot : ∀ s i, f (State.loadRecord s i none) = f s) : f (s.walking a) = f s := by
  unfold State.walking
  rw [foldl_free_same f slot, notice, State.answer, station, agent]

theorem State.walking_agent : (s.walking a).agent a = { s.agent a with state := .detaching } := by
  unfold State.walking
  rw [foldl_free_same (·.agent a) fun _ _ => rfl]
  simp [State.answer]

theorem State.walking_station :
    (s.walking a).station a = { s.station a with resp0 := 0, resp1 := 0, stat := 0 } := by
  unfold State.walking
  rw [foldl_free_same (·.station a) fun _ _ => rfl]
  simp only [State.answer, State.setNotice_station, State.station_setStation_self, State.setAgent_station]
  rfl

theorem State.walking_record (j : SlotId) : (s.walking a).record j = (s.beginWalk a).record j := by
  rw [State.beginWalk_eq, State.endWalk_record]

theorem State.spent_iff (i : SlotId) : i ∈ s.spentOf a ↔ ∃ r, s.record i = some r ∧ r.agent = a ∧ r.isSpent = true := by
  rw [State.spentOf, List.mem_filter]
  cases found : s.record i <;> simp [allSlots]

theorem State.beginWalk_record_eq (i : SlotId) :
    (s.beginWalk a).record i = if i ∈ s.spentOf a then none else s.record i := by
  rw [State.beginWalk_record]
  exact if_congr (by simp [State.spentOf, allSlots]) rfl rfl

/-- The walk is over at once where none but SPENT records were left. -/
theorem State.walking_recordCount_eq_zero_iff :
    (s.walking a).recordCount a = 0 ↔ ∀ i r, s.record i = some r → r.agent = a → r.isSpent = true := by
  rw [State.recordCount_eq_zero_iff]
  constructor
  · intro free i r found owner
    by_contra live
    have kept : (s.walking a).record i = some r := by
      rw [State.walking_record, State.beginWalk_record_eq, if_neg, found]
      rw [State.spent_iff]
      rintro ⟨q, here, _, spent⟩
      obtain rfl := Option.some.inj (found.symm.trans here)
      exact live spent
    exact free i (State.owner_eq_some.mpr ⟨r, kept, owner⟩)
  · intro spent i owned
    obtain ⟨r, found, owner⟩ := State.owner_eq_some.mp owned
    rw [State.walking_record, State.beginWalk_record_eq] at found
    split at found
    · exact nomatch found
    · next live => exact live ((s.spent_iff a i).mpr ⟨r, found, owner, spent i r found owner⟩)

/-- Emptying slots makes the arrivals for them stale, and no other. -/
theorem foldl_free_timer (is : List SlotId) (s : State) :
    (is.foldl (fun s i => s.loadRecord i none) s).timer =
      { s.timer with inFlight := s.timer.inFlight.map fun x => if x.slot ∈ is then { x with stale := true } else x } := by
  induction is generalizing s with
  | nil => simp
  | cons i is ih =>
    rw [List.foldl_cons, ih, State.loadRecord_timer, Timer.spoil, List.map_map]
    refine congrArg (fun fs => { s.timer with inFlight := fs }) (List.map_congr_left fun x _ => ?_)
    by_cases here : x.slot = i
    · simp [here]
    · simp [here]

theorem State.beginWalk_timer :
    (s.beginWalk a).timer =
      { s.timer with
        inFlight := s.timer.inFlight.map fun x => if x.slot ∈ s.spentOf a then { x with stale := true } else x } := by
  rw [State.beginWalk_eq, State.endWalk_timer, State.walking, foldl_free_timer]
  rfl

theorem State.beginWalk_inFlight :
    (s.beginWalk a).timer.inFlight = s.timer.inFlight.map fun x =>
      if (s.beginWalk a).record x.slot = s.record x.slot then x else { x with stale := true } := by
  rw [State.beginWalk_timer]
  refine List.map_congr_left fun x _ => ?_
  rw [State.beginWalk_record_eq]
  by_cases spent : x.slot ∈ s.spentOf a
  · obtain ⟨r, found, _⟩ := (s.spent_iff a x.slot).mp spent
    rw [if_pos spent, if_pos spent, if_neg (by simp [found])]
  · rw [if_neg spent, if_neg spent, if_pos rfl]

variable {s a}

theorem State.beginWalk_of_live (live : ∃ i r, s.record i = some r ∧ r.agent = a ∧ r.isSpent = false) :
    s.beginWalk a = s.walking a := by
  obtain ⟨i, r, found, owner, unspent⟩ := live
  refine State.endWalk_of_left (.inr fun zero => ?_)
  have spent := (s.walking_recordCount_eq_zero_iff a).mp zero i r found owner
  exact nomatch unspent.symm.trans spent

theorem State.beginWalk_of_spent (spent : ∀ i r, s.record i = some r → r.agent = a → r.isSpent = true) :
    s.beginWalk a = (((s.walking a).setAgent a { s.agent a with state := .detached, held := false }).answer a
      (.ok 0 0)).addDetached a := by
  rw [State.beginWalk_eq, State.endWalk_of_done (by rw [State.walking_agent])
    ((s.walking_recordCount_eq_zero_iff a).mpr spent), State.walking_agent]

theorem State.walking_detached : (s.walking a).detached = s.detached :=
  s.walking_same a State.detached (fun _ _ => rfl) (fun _ _ => rfl) (fun _ _ => rfl) fun _ _ => rfl

theorem State.beginWalk_station : (s.beginWalk a).station a = { s.station a with resp0 := 0, resp1 := 0, stat := 0 } := by
  rw [State.beginWalk_eq]
  unfold State.endWalk
  split
  · simp only [State.answer, State.addDetached_station, State.station_setStation_self, State.setAgent_station,
      State.walking_station]
    rfl
  · exact s.walking_station a

theorem State.beginWalk_other {b : AgentId} (other : b ≠ a) :
    (s.beginWalk a).agent b = s.agent b ∧ (s.beginWalk a).notice b = s.notice b ∧
      (s.beginWalk a).station b = s.station b := by
  refine ⟨by rw [State.beginWalk_agent, if_neg other], by rw [State.beginWalk_notice, if_neg other], ?_⟩
  rw [State.beginWalk_eq, ((s.walking a).endWalk_of_other other).2]
  exact s.walking_same a (·.station b) (fun _ _ => rfl) (fun s st => s.station_setStation_of_ne st other)
    (fun _ _ => rfl) fun _ _ => rfl

end BeginWalk

/-! ### The commands (R139, R140) -/

theorem detach_notAttached {aid : AgentId} {s : State} (ready : Ready aid s) (away : (s.agent aid).state = .detached) :
    Refuses (.detach aid) s aid 0x02 Reason.notAttached aid.val := by
  rw [Refuses, exec_detach, execDetach, atAgentStation_ready ready]
  simp [State.isAttached, away]

theorem detach_taken {aid : AgentId} {s : State} (ready : Ready aid s) (attached : (s.agent aid).state = .attached) :
    exec (.detach aid) s = .next ((s.taken aid 0x02).beginWalk aid) := by
  rw [exec_detach, execDetach, atAgentStation_ready ready]
  simp [State.isAttached, attached]

/-- DETACH_AGENT on an ATTACHED agent. -/
def State.detachAgent (s : State) (a : AgentId) : State :=
  ((s.setStation a { s.station a with cmd := 0 }).beginWalk a).answerControl (.ok 0 0)

theorem exec_detachAgent_eq (aid : AgentId) (s : State) :
    exec (.detachAgent aid) s = atControlStation 0x2E aid (fun s => s.onAttachedAgent s.detachAgent) s := rfl

/-- Settles O14: the refusals of every command on an ATTACHED agent; the beginning of a walk, field by field. -/
theorem detach : Obligations.Detach := by
  refine ⟨⟨fun aid s ready => ⟨detach_notAttached ready, detach_taken ready⟩, fun aid s sup => ?command⟩,
    fun a s t begun => ?walk⟩
  case command =>
    simp only [RefusesControl, exec_detachAgent_eq]
    exact ⟨onAttachedAgent_badArgument sup, fun a named => ⟨onAttachedAgent_notAttached sup named,
      onAttachedAgent_detaching sup named, fun attached => onAttachedAgent_attached sup named attached⟩⟩
  case walk =>
    subst begun
    have same {α : Type} (f : State → α) (agent : ∀ s r, f (State.setAgent s a r) = f s)
        (station : ∀ s st, f (State.setStation s a st) = f s) (notice : ∀ s q, f (State.setNotice s a q) = f s)
        (slot : ∀ s i, f (State.loadRecord s i none) = f s) (set : ∀ s, f (State.addDetached s a) = f s) :
        f (s.beginWalk a) = f s := by
      refine s.beginWalk_same f a agent station notice slot fun w => ?_
      unfold State.endWalk
      split
      · exact (set _).trans ((station _ _).trans (agent w _))
      · rfl
    refine ⟨fun i => ?record, s.beginWalk_serial a, by rw [State.beginWalk_notice, if_pos rfl], fun live => ⟨?_, ?_⟩,
      fun spent => ⟨?_, fun b => ?_⟩, State.beginWalk_station, fun b other => State.beginWalk_other other, ?_, ?_, ?_, ?_,
      ?_, ?_, ?_, ?_, ?_, ?_, ?_, ?_, ?_, ?_, ?_, s.beginWalk_inFlight a⟩
    case record => rw [State.beginWalk_record_eq]; exact if_congr (s.spent_iff a i) rfl rfl
    · rw [State.beginWalk_of_live live, State.walking_agent]
    · rw [State.beginWalk_of_live live, State.walking_detached]
    · rw [State.beginWalk_of_spent spent]; simp [State.answer]
    · rw [State.beginWalk_of_spent spent, State.addDetached_get, State.answer, State.setStation_detached,
        State.setAgent_detached, State.walking_detached]
    · apply same State.units <;> intros <;> rfl
    · apply same State.pools <;> intros <;> rfl
    · apply same State.control <;> intros <;> rfl
    · apply same State.ceiling <;> intros <;> rfl
    · apply same State.frozen <;> intros <;> rfl
    · apply same State.drained <;> intros <;> rfl
    · apply same State.controlAttention <;> intros <;> rfl
    · apply same State.supervisor <;> intros <;> rfl
    · apply same State.inReset <;> intros <;> rfl
    · apply same State.port <;> intros <;> rfl
    · apply same State.pending <;> intros <;> rfl
    · apply same (·.timer.source) <;> intros <;> rfl
    · apply same (·.timer.divider) <;> intros <;> rfl
    · apply same (·.timer.count) <;> intros <;> rfl
    · apply same (·.timer.reference) <;> intros <;> rfl

end Sys2Proof.Machine
end

section
/-! SUPPORT. The steps of a walk and its end (spec/08 R142 to R145), and that the walk comes to its end: the statements on
them. -/

namespace Sys2Proof.Machine

/-! ### The first element of an ascending list -/

theorem filter_of_first {n : Nat} {q : Fin n → Bool} {i : Fin n} (here : q i = true) (below : ∀ j, j < i → q j = false)
    {l : List (Fin n)} (sorted : l.Pairwise (· < ·)) (mem : i ∈ l) : ∃ rest, l.filter q = i :: rest := by
  induction l with
  | nil => exact nomatch mem
  | cons j l ih =>
    obtain ⟨first, sorted⟩ := List.pairwise_cons.mp sorted
    rcases List.mem_cons.mp mem with rfl | mem
    · exact ⟨l.filter q, by rw [List.filter_cons, if_pos here]⟩
    · rw [List.filter_cons, if_neg (by simp [below j (first i mem)])]
      exact ih sorted mem

theorem findSome?_of_first {n : Nat} {α : Type} {f : Fin n → Option α} {u : Fin n} {x : α} (here : f u = some x)
    (below : ∀ v, v < u → f v = none) {l : List (Fin n)} (sorted : l.Pairwise (· < ·)) (mem : u ∈ l) :
    l.findSome? f = some x := by
  induction l with
  | nil => exact nomatch mem
  | cons v l ih =>
    obtain ⟨first, sorted⟩ := List.pairwise_cons.mp sorted
    rcases List.mem_cons.mp mem with rfl | mem
    · rw [List.findSome?_cons, here]
    · rw [List.findSome?_cons, below v (first u mem)]
      exact ih sorted mem

/-! ### What a step finds -/

section Steps

variable {s : State} {a : AgentId} {i : SlotId} {r : Record}

theorem State.mem_waitsOf : i ∈ s.waitsOf a ↔ ∃ r, s.record i = some r ∧ r.agent = a ∧ r.isWaiting = true := by
  rw [State.waitsOf, List.mem_filter]
  cases found : s.record i <;> simp [allSlots]

theorem State.waitsOf_of_lowest (found : s.record i = some r) (owner : r.agent = a) (waits : r.isWaiting = true)
    (lowest : ∀ j q, j < i → s.record j = some q → q.agent = a → q.isWaiting = false) :
    ∃ rest, s.waitsOf a = i :: rest := by
  refine filter_of_first (by simp [found, owner, waits]) (fun j before => ?_) (List.pairwise_lt_finRange 96)
    (List.mem_finRange i)
  cases other : s.record j with
  | none => rfl
  | some q =>
    by_cases same : q.agent = a
    · simp [lowest j q before other same]
    · simp [same]

theorem State.waitsOf_eq_nil (free : ∀ i r, s.record i = some r → r.agent = a → r.isWaiting = false) :
    s.waitsOf a = [] := by
  rw [List.eq_nil_iff_forall_not_mem]
  intro i mem
  obtain ⟨r, found, owner, waits⟩ := State.mem_waitsOf.mp mem
  exact nomatch (free i r found owner).symm.trans waits

theorem State.holderOf_eq_some {u : UnitId} (first : s.holderOf a u = some i) :
    ∃ r, s.record i = some r ∧ r.agent = a ∧ r.holding = some u := by
  obtain ⟨r, found, holds⟩ := (s.mem_holders u i).mp (List.mem_of_find?_eq_some first)
  have named : s.owner i = some a := by simpa using List.find?_some (p := fun k => s.owner k == some a) first
  exact ⟨r, found, by simpa [State.owner, found] using named, holds⟩

theorem State.findSome?_holderOf_of_lowest {u : UnitId} (sole : SoleHold s a u i r)
    (lowest : ∀ j v, s.owner j = some a → s.holding j = some v → u ≤ v) :
    allUnits.findSome? (s.holderOf a) = some i := by
  refine findSome?_of_first (State.holderOf_of_soleHold sole) (fun v before => State.holderOf_of_unheld
    fun j owned holds => ?_) (List.pairwise_lt_finRange 64) (List.mem_finRange u)
  exact absurd before (not_lt.mpr (lowest j v owned holds))

theorem State.findSome?_holderOf_eq_none (free : ∀ i r, s.record i = some r → r.agent = a → r.holding = none) :
    allUnits.findSome? (s.holderOf a) = none := by
  refine List.findSome?_eq_none_iff.mpr fun u _ => State.holderOf_of_unheld fun i owned holds => ?_
  obtain ⟨r, found, owner⟩ := State.owner_eq_some.mp owned
  rw [State.holding_of_record found, free i r found owner] at holds
  exact nomatch holds

/-! ### The steps (R142, R143) -/

theorem withdrawalStep_idle (running : s.inReset = false) (idle : (s.agent a).state ≠ .detaching ∨ s.waitsOf a = []) :
    exec (.withdrawalStep a) s = .next s.quiet := by
  rw [exec_withdrawalStep, execWithdrawalStep, asEvent_running running, State.quiet_busy, State.quiet_waitsOf]
  rcases idle with still | absent
  · rw [if_neg fun busy => still ((s.busy_iff a).mp busy)]
  · rw [absent]; split <;> rfl

theorem withdrawalStep_retires (running : s.inReset = false) (walks : (s.agent a).state = .detaching)
    {rest : List SlotId} (first : s.waitsOf a = i :: rest) : exec (.withdrawalStep a) s = .next (s.quiet.retire i) := by
  rw [exec_withdrawalStep, execWithdrawalStep, asEvent_running running, State.quiet_busy, State.quiet_waitsOf,
    if_pos ((s.busy_iff a).mpr walks), first]

theorem holdingStep_idle (running : s.inReset = false)
    (idle : (s.agent a).state ≠ .detaching ∨ s.waitsOf a ≠ [] ∨ allUnits.findSome? (s.holderOf a) = none) :
    exec (.holdingStep a) s = .next s.quiet := by
  rw [exec_holdingStep, execHoldingStep, asEvent_running running, State.quiet_busy, State.quiet_waitsOf]
  rcases idle with still | waits | absent
  · rw [if_neg fun h => still ((s.busy_iff a).mp h.1)]
  · rw [if_neg fun h => waits h.2]
  · have same : allUnits.findSome? (s.quiet.holderOf a) = none := absent
    rw [same]; split <;> rfl

theorem holdingStep_retires (running : s.inReset = false) (walks : (s.agent a).state = .detaching)
    (free : s.waitsOf a = []) (first : allUnits.findSome? (s.holderOf a) = some i) :
    exec (.holdingStep a) s = .next (s.quiet.retire i) := by
  have same : allUnits.findSome? (s.quiet.holderOf a) = some i := first
  rw [exec_holdingStep, execHoldingStep, asEvent_running running, State.quiet_busy, State.quiet_waitsOf,
    if_pos ⟨(s.busy_iff a).mpr walks, free⟩, same]

end Steps

/-- Settles O15: a step retires the first record that its search finds. -/
theorem walkStepsAndEnd : Obligations.WalkStepsAndEnd := by
  refine ⟨fun a s running => ⟨fun still => ⟨withdrawalStep_idle running (.inl still), holdingStep_idle running (.inl still)⟩,
    fun walks => ⟨fun i r found owner waits lowest => ?waiting, fun free => ?holding⟩⟩,
    fun a s running => ⟨fun walks zero => ?ended, fun left => ?left⟩⟩
  case waiting =>
    obtain ⟨rest, first⟩ := State.waitsOf_of_lowest found owner waits lowest
    exact ⟨withdrawalStep_retires running walks first, holdingStep_idle running (.inr (.inl (by simp [first])))⟩
  case holding =>
    have waitless := State.waitsOf_eq_nil free
    exact ⟨withdrawalStep_idle running (.inr waitless),
      fun u i r sole lowest => holdingStep_retires running walks waitless
        (State.findSome?_holderOf_of_lowest sole lowest),
      fun unheld => holdingStep_idle running (.inr (.inr (State.findSome?_holderOf_eq_none unheld)))⟩
  case ended =>
    rw [exec_walkEnd, execWalkEnd, asEvent_running running,
      State.endWalk_of_done (s := s.quiet) walks ((s.quiet_recordCount a).trans zero)]
    rfl
  case left =>
    rw [exec_walkEnd, execWalkEnd, asEvent_running running, State.endWalk_of_left (s := s.quiet)]
    exact left.imp id fun more => (s.quiet_recordCount a).symm ▸ Nat.pos_iff_ne_zero.mp more

/-! ### Progress -/

/-- In every state of a walk one of the two steps retires a record of the departing agent. -/
theorem SessionLaw.walk_retires {s : State} {a : AgentId} (law : SessionLaw s) (running : s.inReset = false)
    (walks : (s.agent a).state = .detaching) :
    ∃ c i r, (c = .withdrawalStep a ∨ c = .holdingStep a) ∧ exec c s = .next (s.quiet.retire i) ∧
      s.record i = some r ∧ r.agent = a := by
  have here := (sessionLaw_iff s).mp law a
  cases waits : s.waitsOf a with
  | cons i rest =>
    obtain ⟨r, found, owner, _⟩ := State.mem_waitsOf.mp (waits ▸ List.mem_cons_self : i ∈ s.waitsOf a)
    exact ⟨_, i, r, .inl rfl, withdrawalStep_retires running walks waits, found, owner⟩
  | nil =>
    cases first : allUnits.findSome? (s.holderOf a) with
    | some i =>
      obtain ⟨u, _, held⟩ := List.exists_of_findSome?_eq_some first
      obtain ⟨r, found, owner, _⟩ := State.holderOf_eq_some held
      exact ⟨_, i, r, .inr rfl, holdingStep_retires running walks waits first, found, owner⟩
    | none =>
      obtain ⟨i, owned⟩ := here.walking walks
      obtain ⟨r, found, owner⟩ := State.owner_eq_some.mp owned
      have idle : r.isWaiting ≠ true := fun waiting =>
        (waits ▸ List.not_mem_nil : i ∉ s.waitsOf a) (State.mem_waitsOf.mpr ⟨r, found, owner, waiting⟩)
      have unspent : r.isSpent ≠ true := fun spent =>
        nomatch walks.symm.trans (here.spent i (State.spentBy_eq_some.mpr ⟨r, found, spent, owner⟩))
      have unheld (u : UnitId) : r.holding ≠ some u := fun holds => by
        have member : i ∈ s.holders u := (s.mem_holders u i).mpr ⟨r, found, holds⟩
        have other := List.find?_eq_none.mp (List.findSome?_eq_none_iff.mp first u (List.mem_finRange u)) i member
        simp [owned] at other
      cases standing : r.standing <;> simp [Record.isWaiting, Record.isSpent, Record.holding, standing] at *

/-- Settles O16: what the retirement of one record does to its agent's count and walk. -/
theorem walkProgress : Obligations.WalkProgress := by
  intro a s law running walks
  obtain ⟨c, i, r, step, next, found, rfl⟩ := law.walk_retires running walks
  obtain ⟨⟨p, _, _, last, left, _, _, agents, stations, detached⟩, _, _, _, _, _, count, _⟩ :=
    retirement s.quiet (s.quiet.retire i) i r found rfl
  have agent : (s.quiet.retire i).agent r.agent = p.agent r.agent := congrArg (·.get r.agent) agents
  have station : (s.quiet.retire i).station r.agent = p.station r.agent := congrArg (·.get r.agent) stations
  have counted : (s.quiet.retire i).recordCount r.agent + 1 = s.recordCount r.agent := count
  refine ⟨c, s.quiet.retire i, step, next, counted, ?_, fun zero => ?_, fun more => ?_⟩
  · by_cases one : s.recordCount r.agent = 1
    · rw [agent, (last walks one).1]; rfl
    · rw [agent, (left (.inr (show 1 < s.recordCount r.agent by omega))).1]; rfl
  · obtain ⟨ended, answered, set⟩ := last walks (show s.recordCount r.agent = 1 by omega)
    have state : ((s.quiet.retire i).agent r.agent).state = .detached := by rw [agent, ended]
    refine ⟨state, ?_, ?_⟩
    · rw [detached, set]; simp
    · have ready : (s.quiet.retire i).busy r.agent = false := by simp [State.busy, state]
      simp [State.readWord, State.readStation, ready, station, answered, Station.word]
  · rw [agent, (left (.inr (show 1 < s.recordCount r.agent by omega))).1]
    exact walks

end Sys2Proof.Machine
end

section
/-! SUPPORT. What takes each row of the command table to its effect (spec/10 R146, R170 to R173, R178): at a station, as an
event of the part, or as another access of the port; and the statements on the port. -/

namespace Sys2Proof.Machine

/-! ### The three ways that a command is taken -/

section Taken

variable {code : Word} {aid : AgentId} {body : State → State} {s : State}

theorem atAgentStation_inReset (reset : s.inReset = true) : atAgentStation code aid body s = .next s.quiet :=
  if_pos (.inl reset)

theorem atAgentStation_busy (busy : s.busy aid = true) : atAgentStation code aid body s = .next s.quiet :=
  if_pos (.inr busy)

theorem atControlStation_inReset (reset : s.inReset = true) : atControlStation code aid body s = .next s.quiet :=
  if_pos reset

theorem atControlStation_refused (running : s.inReset = false) (other : aid ≠ s.supervisor) :
    atControlStation code aid body s = .next (s.setPort { err := true, data := none }) := by
  have outside : ¬ s.quiet.inReset = true := by simp [running]
  exact (if_neg outside).trans (if_neg other)

theorem asEvent_inReset (reset : s.inReset = true) : asEvent body s = .next s.quiet := if_pos reset

end Taken

/-! ### Codes (R172) -/

section Codes

variable {aid : AgentId} {code : Nat} {c : Instr}

theorem takeAgentCode_of_some (named : agentCommand aid code = some c) (s : State) :
    takeAgentCode aid code s = exec c s := by
  unfold agentCommand at named
  split at named <;> cases named <;> rfl

theorem takeControlCode_of_some (named : controlCommand aid code = some c) (s : State) :
    takeControlCode aid code s = exec c s := by
  unfold controlCommand at named
  split at named <;> cases named <;> rfl

theorem takeAgentCode_of_none (unnamed : agentCommand aid code = none) (s : State) :
    takeAgentCode aid code s =
      atAgentStation (BitVec.ofNat 32 code) aid (fun s => s.answer aid (.refuse Reason.badCommand 0)) s := by
  unfold takeAgentCode
  split
  rotate_right
  · rfl
  all_goals exact nomatch unnamed

theorem takeControlCode_of_none (unnamed : controlCommand aid code = none) (s : State) :
    takeControlCode aid code s =
      atControlStation (BitVec.ofNat 32 code) aid (fun s => s.answerControl (.refuse Reason.badCommand 0)) s := by
  unfold takeControlCode
  split
  rotate_right
  · rfl
  all_goals exact nomatch unnamed

/-- Every command that an agent's code names is taken at the agent's station. -/
theorem agentCommand_atStation (named : agentCommand aid code = some c) :
    ∃ w body, ∀ s, exec c s = atAgentStation w aid body s := by
  unfold agentCommand at named
  split at named <;> cases named <;> simp only [exec] <;> exact ⟨_, _, fun _ => rfl⟩

theorem controlCommand_atStation (named : controlCommand aid code = some c) :
    ∃ w body, ∀ s, exec c s = atControlStation w aid body s := by
  unfold controlCommand at named
  split at named <;> cases named <;> simp only [exec] <;> exact ⟨_, _, fun _ => rfl⟩

/-- A code is taken at its station, whether it names a command or not. -/
theorem takeAgentCode_atStation (aid : AgentId) (code : Nat) :
    ∃ w body, ∀ s, takeAgentCode aid code s = atAgentStation w aid body s := by
  cases named : agentCommand aid code with
  | none => exact ⟨_, _, takeAgentCode_of_none named⟩
  | some c =>
    obtain ⟨w, body, taken⟩ := agentCommand_atStation named
    exact ⟨w, body, fun s => (takeAgentCode_of_some named s).trans (taken s)⟩

theorem takeControlCode_atStation (aid : AgentId) (code : Nat) :
    ∃ w body, ∀ s, takeControlCode aid code s = atControlStation w aid body s := by
  cases named : controlCommand aid code with
  | none => exact ⟨_, _, takeControlCode_of_none named⟩
  | some c =>
    obtain ⟨w, body, taken⟩ := controlCommand_atStation named
    exact ⟨w, body, fun s => (takeControlCode_of_some named s).trans (taken s)⟩

end Codes

end Sys2Proof.Machine
end

section
/-! SUPPORT. The rows of the command table by the way they are taken, and what a write of any word does; the statements on
the port (spec/10 R146, R170 to R173, R178). -/

namespace Sys2Proof.Machine

/-! ### Writes and reads of words -/

section Words

variable {aid : AgentId} {o : WordOffset} {s : State}

theorem portWrite_agentCmd (aid : AgentId) (data : Word) (s : State) :
    portWrite aid 3 data s = takeAgentCode aid (data.toNat % 256) s := rfl

theorem portWrite_controlCmd (aid : AgentId) (data : Word) (s : State) :
    portWrite aid 19 data s = takeControlCode aid (data.toNat % 256) s := rfl

/-- A write of CMD takes the code, at the row UNDEFINED_COMMAND too. -/
theorem portWrite_cmd (w : Window) (aid : AgentId) (data : Word) (s : State) :
    portWrite aid w.cmdOffset data s = exec (.undefinedCommand aid w data) s := by
  cases w <;> rfl

theorem portWrite_word (agent : o.val ≠ 3) (control : o.val ≠ 19) (data : Word) :
    portWrite aid o data s = storeWord aid o data s := by
  have first : o ≠ Window.agent.cmdOffset := fun same => agent (congrArg Fin.val same)
  have second : o ≠ Window.control.cmdOffset := fun same => control (congrArg Fin.val same)
  rw [portWrite, if_neg first, if_neg second]

theorem storeWord_inReset (reset : s.inReset = true) (data : Word) : storeWord aid o data s = .next s.quiet :=
  if_pos reset

theorem storeWord_running (running : s.inReset = false) (data : Word) :
    storeWord aid o data s =
      if o.val < 7 then
        if s.busy aid = true then .next s.quiet
        else .next (s.quiet.setStation aid ((s.station aid).stored o.val data))
      else if 16 ≤ o.val ∧ o.val ≤ 22 then
        if aid = s.supervisor then .next (s.quiet.setControl (s.control.stored (o.val - 16) data))
        else .next (s.setPort { err := true, data := none })
      else .next s.quiet := by
  have outside : ¬ s.quiet.inReset = true := by simp [running]
  unfold storeWord
  rw [if_neg outside]
  simp only [inControlWindow, decide_eq_true_eq]
  rfl

theorem storeWord_station (running : s.inReset = false) (low : o.val < 7) (ready : s.busy aid = false) (data : Word) :
    storeWord aid o data s = .next (s.quiet.setStation aid ((s.station aid).stored o.val data)) := by
  rw [storeWord_running running, if_pos low, if_neg (by simp [ready])]

theorem storeWord_busy (running : s.inReset = false) (low : o.val < 7) (busy : s.busy aid = true) (data : Word) :
    storeWord aid o data s = .next s.quiet := by
  rw [storeWord_running running, if_pos low, if_pos busy]

theorem storeWord_supervisor (running : s.inReset = false) (window : 16 ≤ o.val ∧ o.val ≤ 22) (sup : aid = s.supervisor)
    (data : Word) : storeWord aid o data s = .next (s.quiet.setControl (s.control.stored (o.val - 16) data)) := by
  rw [storeWord_running running, if_neg (by omega), if_pos window, if_pos sup]

theorem storeWord_refused (running : s.inReset = false) (window : 16 ≤ o.val ∧ o.val ≤ 22) (other : aid ≠ s.supervisor)
    (data : Word) : storeWord aid o data s = .next (s.setPort { err := true, data := none }) := by
  rw [storeWord_running running, if_neg (by omega), if_pos window, if_neg other]

theorem storeWord_unmapped (running : s.inReset = false) (outside : (7 ≤ o.val ∧ o.val ≤ 15) ∨ 23 ≤ o.val)
    (data : Word) : storeWord aid o data s = .next s.quiet := by
  rw [storeWord_running running, if_neg (by omega), if_neg (by omega)]

/-- The words of an answer take no write. -/
theorem Station.stored_answer (st : Station) {k : Nat} (answer : 3 ≤ k) (data : Word) : st.stored k data = st := by
  unfold Station.stored
  split
  · omega
  · omega
  · omega
  · rfl

theorem storeWord_answer (running : s.inReset = false) (low : 4 ≤ o.val ∧ o.val < 7) (data : Word) :
    storeWord aid o data s = .next s.quiet := by
  cases busy : s.busy aid with
  | true => exact storeWord_busy running low.2 busy data
  | false =>
    rw [storeWord_station running low.2 busy, Station.stored_answer _ (by omega)]
    exact congrArg _ (s.quiet.setStation_self aid)

theorem portWrite_inReset (reset : s.inReset = true) (aid : AgentId) (o : WordOffset) (data : Word) :
    portWrite aid o data s = .next s.quiet := by
  by_cases agent : o = 3
  · obtain ⟨w, body, taken⟩ := takeAgentCode_atStation aid (data.toNat % 256)
    rw [agent, portWrite_agentCmd, taken]
    exact atAgentStation_inReset reset
  · by_cases control : o = 19
    · obtain ⟨w, body, taken⟩ := takeControlCode_atStation aid (data.toNat % 256)
      rw [control, portWrite_controlCmd, taken]
      exact atControlStation_inReset reset
    · rw [portWrite_word (fun same => agent (Fin.ext same)) fun same => control (Fin.ext same)]
      exact storeWord_inReset reset data

/-- A write finds the port quiet. -/
theorem portWrite_quiet (aid : AgentId) (o : WordOffset) (data : Word) (s : State) :
    portWrite aid o data s.quiet = portWrite aid o data s := by
  by_cases agent : o = 3
  · obtain ⟨w, body, taken⟩ := takeAgentCode_atStation aid (data.toNat % 256)
    rw [agent, portWrite_agentCmd, portWrite_agentCmd, taken, taken]
    rfl
  · by_cases control : o = 19
    · obtain ⟨w, body, taken⟩ := takeControlCode_atStation aid (data.toNat % 256)
      rw [control, portWrite_controlCmd, portWrite_controlCmd, taken, taken]
      rfl
    · have word (w : State) : portWrite aid o data w = storeWord aid o data w :=
        portWrite_word (fun same => agent (Fin.ext same)) (fun same => control (Fin.ext same)) data
      rw [word, word]
      rfl

/-- In the control window every write of another agent than the supervisor is refused (R171). -/
theorem portWrite_refused (running : s.inReset = false) (window : 16 ≤ o.val ∧ o.val ≤ 22) (other : aid ≠ s.supervisor)
    (data : Word) : portWrite aid o data s = .next (s.setPort { err := true, data := none }) := by
  by_cases control : o = 19
  · obtain ⟨w, body, taken⟩ := takeControlCode_atStation aid (data.toNat % 256)
    rw [control, portWrite_controlCmd, taken]
    exact atControlStation_refused running other
  · rw [portWrite_word (by omega) fun same => control (Fin.ext same)]
    exact storeWord_refused running window other data

/-- At a BUSY station every write is discarded (R146, R173). -/
theorem portWrite_busy (running : s.inReset = false) (low : o.val ≤ 6) (busy : s.busy aid = true) (data : Word) :
    portWrite aid o data s = .next s.quiet := by
  by_cases agent : o = 3
  · obtain ⟨w, body, taken⟩ := takeAgentCode_atStation aid (data.toNat % 256)
    rw [agent, portWrite_agentCmd, taken]
    exact atAgentStation_busy busy
  · rw [portWrite_word (fun same => agent (Fin.ext same)) (by omega)]
    exact storeWord_busy running (by omega) busy data

theorem State.readWord_running (running : s.inReset = false) :
    s.readWord aid o =
      if o.val < 7 then s.readStation aid o.val
      else if 16 ≤ o.val ∧ o.val ≤ 22 then (if aid = s.supervisor then s.control.word (o.val - 16) else 0)
      else if o.val = 31 then Config.partId
      else 0 := by
  simp only [State.readWord, running, Bool.false_eq_true, if_false, inControlWindow, decide_eq_true_eq]

theorem State.readStation_ready (ready : s.busy aid = false) (k : Nat) :
    s.readStation aid k = (s.station aid).word k := by
  simp [State.readStation, ready]

theorem State.isRefused_running (running : s.inReset = false) :
    s.isRefused aid o = decide (16 ≤ o.val ∧ o.val ≤ 22 ∧ aid ≠ s.supervisor) := by
  simp [State.isRefused, running, inControlWindow, Bool.decide_and, bne, Bool.and_assoc, beq_eq_decide]

end Words

/-! ### The rows of the table -/

/-- The way a row of the table is taken. -/
inductive Row (c : Instr) : Prop where
  | agent (code : Word) (aid : AgentId) (body : State → State)
      (taken : ∀ s, exec c s = atAgentStation code aid body s) : Row c
  | control (code : Word) (aid : AgentId) (body : State → State)
      (taken : ∀ s, exec c s = atControlStation code aid body s) : Row c
  | event (body : State → State) (taken : ∀ s, exec c s = asEvent body s) : Row c
  | write (aid : AgentId) (o : WordOffset) (data : Word) (taken : ∀ s, exec c s = portWrite aid o data s) : Row c
  | read (aid : AgentId) (o : WordOffset) (row : c = .controlWindowRefused aid o .read) : Row c
  | reset (row : c = .hardwareReset) : Row c
  | release (row : c = .hardwareResetRelease) : Row c
  | power (straps : AgentId) (row : c = .powerOn straps) : Row c

theorem exec_row (c : Instr) : Row c := by
  cases c with
  | attach | detach | acquire | acquireAny | release | renew | upgrade | downgrade | cancel | queryLease | queryUnit
  | probe | nextNotice | setAttention =>
    apply Row.agent
    simp only [exec]
    exact fun _ => rfl
  | configureUnit | configurePool | setBand | setClearance | setQuota | setTick | openUnit | drainUnit | restoreUnit
  | recallLease | recallUnit | holdAgent | resumeAgent | detachAgent | setBottom | freeze | resetLive | readCompletions
  | setControlAttention | inspectRecord | listHolder =>
    apply Row.control
    simp only [exec]
    exact fun _ => rfl
  | tick | tickArrival | leaseExpiry | waitTimeout | graceExpiry | withdrawalStep | holdingStep | walkEnd
  | drainCompletion | clkRisingEdge =>
    apply Row.event
    simp only [exec]
    exact fun _ => rfl
  | undefinedCommand aid w data => exact .write aid w.cmdOffset data fun s => (portWrite_cmd w aid data s).symm
  | argumentWrite aid o data => exact .write aid o data fun _ => rfl
  | busyStationWrite aid o data => exact .write aid o data fun _ => rfl
  | controlWindowRefused aid o access =>
    cases access with
    | read => exact .read aid o rfl
    | write data => exact .write aid o data fun _ => rfl
  | hardwareReset => exact .reset rfl
  | hardwareResetRelease => exact .release rfl
  | powerOn straps => exact .power straps rfl

/-! ### The statements on the port -/

/-- Settles O3: a code that names a command is that command's, at either station; any other is answered BAD_COMMAND. -/
theorem commandCodes : Obligations.CommandCodes := by
  refine ⟨fun w aid data s c named => ?_, fun aid data s ready unnamed => ?_, fun aid data s sup unnamed => ?_⟩
  · rw [portWrite_cmd w aid data s, and_self]
    cases w with
    | agent => exact takeAgentCode_of_some named s
    | control => exact takeControlCode_of_some named s
  · exact (takeAgentCode_of_none unnamed s).trans ((atAgentStation_ready ready _ _).trans (by rw [State.taken_answer]))
  · exact (takeControlCode_of_none unnamed s).trans (atControlStation_supervises sup _ _)

/-- Settles O4: each offset falls in one branch of the write, and in one of the read. -/
theorem stationWords : Obligations.StationWords := by
  refine ⟨fun aid data s running => ⟨fun ready => ?arguments, fun sup => ⟨?_, ?_, ?_, fun o low high => ?answer⟩,
    fun o outside => ?ignored⟩, fun aid s running => ⟨fun ready => ?own, fun sup => ?control, fun other o low high => ?none,
      ?part, fun o outside => ?zero, fun o => ?port⟩⟩
  case arguments =>
    refine ⟨?_, ?_, ?_⟩ <;> exact storeWord_station running (by decide) ready data
  · exact storeWord_supervisor running (by decide) sup data
  · exact storeWord_supervisor running (by decide) sup data
  · exact storeWord_supervisor running (by decide) sup data
  case answer =>
    refine (portWrite_word (by omega) (by omega) data).trans ?_
    rw [storeWord_supervisor running (by omega) sup, Station.stored_answer _ (by omega)]
    rfl
  case ignored =>
    refine (portWrite_word (by omega) (by omega) data).trans ?_
    by_cases low : o.val < 7
    · exact storeWord_answer running (by omega) data
    · exact storeWord_unmapped running (by omega) data
  case own => simp [State.readWord_running running, State.readStation_ready ready, Station.word]
  case control => simp [State.readWord_running running, sup, Station.word]
  case none => rw [State.readWord_running running, if_neg (by omega), if_pos ⟨low, high⟩, if_neg other]
  case part => rw [State.readWord_running running]; rfl
  case zero => rw [State.readWord_running running, if_neg (by omega), if_neg (by omega), if_neg (by omega)]
  case port => rw [portRead, State.isRefused_running running]

/-- Settles O5: what is taken at a BUSY station, whether by its code or its offset, is discarded. -/
theorem busyStation : Obligations.BusyStation := by
  refine fun aid s running => ⟨fun busy => ⟨fun code c named => ?code, fun data => ?undefined, fun o data low => ?write,
    ?_, ?_, ?_, ?_, ?_, ?_, ?_⟩, fun ready data => ⟨?arg0, ?arg1, ?arg2, ?cmd⟩⟩
  case code =>
    obtain ⟨w, body, taken⟩ := agentCommand_atStation named
    exact (taken s).trans (atAgentStation_busy busy)
  case undefined => exact (portWrite_cmd .agent aid data s).symm.trans (portWrite_busy running (by decide) busy data)
  case write => exact ⟨portWrite_busy running low busy data, portWrite_busy running low busy data⟩
  case arg0 => exact storeWord_station running (by decide) ready data
  case arg1 => exact storeWord_station running (by decide) ready data
  case arg2 => exact storeWord_station running (by decide) ready data
  case cmd => rfl
  all_goals simp [State.readWord_running running, State.readStation, busy, Station.word, busyWord]

/-- Settles O6: the control window refuses by its offset; every row of the table finds the port quiet. -/
theorem controlWindow : Obligations.ControlWindow := by
  refine ⟨fun aid s running other => ⟨fun code c named => ?code, fun data => ?undefined, fun o low high => ⟨?read,
    fun data => ⟨portWrite_refused running ⟨low, high⟩ other data, portWrite_refused running ⟨low, high⟩ other data⟩⟩⟩,
    fun s running o low high => ⟨?own, fun data => ?written⟩, fun c s => ?quiet⟩
  case code =>
    obtain ⟨w, body, taken⟩ := controlCommand_atStation named
    exact (taken s).trans (atControlStation_refused running other)
  case undefined =>
    exact (portWrite_cmd .control aid data s).symm.trans (portWrite_refused running (by decide) other data)
  case read =>
    show portRead aid o s = _
    rw [portRead, State.isRefused_running running, State.readWord_running running, if_neg (by omega),
      if_pos ⟨low, high⟩, if_neg other, decide_eq_true ⟨low, high, other⟩]
  case own =>
    show portRead s.supervisor o s = _
    rw [portRead, State.isRefused_running running, State.readWord_running running, if_neg (by omega),
      if_pos ⟨low, high⟩, if_pos rfl, decide_eq_false fun h => h.2.2 rfl]
  case written =>
    show portWrite s.supervisor o data s = _
    split
    · next cmd =>
      obtain rfl : o = 19 := Fin.ext cmd
      rfl
    · rfl
  case quiet =>
    cases exec_row c with
    | agent code aid body taken => rw [taken, taken]; rfl
    | control code aid body taken => rw [taken, taken]; rfl
    | event body taken => rw [taken, taken]; rfl
    | write aid o data taken => rw [taken, taken]; exact portWrite_quiet aid o data s
    | read aid o row => rw [row]; rfl
    | reset row => rw [row]; rfl
    | release row => rw [row]; rfl
    | power straps row => rw [row]; rfl

/-- Settles O7: a case for each way that a row is taken. -/
theorem partInReset : Obligations.PartInReset := by
  refine fun s reset => ⟨fun c notReset notRelease notPower notRead => ?row, fun aid o => ?read, fun aid o => if_pos reset⟩
  case row =>
    cases exec_row c with
    | agent code aid body taken => exact (taken s).trans (atAgentStation_inReset reset)
    | control code aid body taken => exact (taken s).trans (atControlStation_inReset reset)
    | event body taken => exact (taken s).trans (asEvent_inReset reset)
    | write aid o data taken => exact (taken s).trans (portWrite_inReset reset aid o data)
    | read aid o row => exact absurd row (notRead aid o)
    | reset row => exact absurd row notReset
    | release row => exact absurd row notRelease
    | power straps row => exact absurd row (notPower straps)
  case read =>
    show portRead aid o s = _
    simp [portRead, State.isRefused, State.readWord, reset]

end Sys2Proof.Machine
end

section
/-! SUPPORT. Steps, power-on, the resets and the laws right after reset (spec/09 R167 to R169; spec/10 R177, R178): the
statements on them. -/

namespace Sys2Proof.Machine

/-- Settles O1: a case for each form of the queue of commands. -/
theorem stepTakesTheFrontCommand : Obligations.StepTakesTheFrontCommand :=
  ⟨fun c rest s front => by simp only [step, front], fun s idle => by simp only [step, idle]⟩

/-! ### Power-on and hardware reset -/

theorem State.afterPowerOn_slot (x : AgentId) (i : SlotId) :
    (State.afterPowerOn x).slot i = { serial := 0, record := none } := by
  simp [State.afterPowerOn, State.slot]

theorem State.afterPowerOn_station (x b : AgentId) : (State.afterPowerOn x).station b = Station.zero := by
  simp [State.afterPowerOn, State.station]

theorem State.afterPowerOn_drained (x : AgentId) (u : UnitId) : (State.afterPowerOn x).drained.get u = false := by
  simp [State.afterPowerOn]

theorem State.afterPowerOn_detached (x a : AgentId) : (State.afterPowerOn x).detached.get a = false := by
  simp [State.afterPowerOn]

theorem State.hardwareReset_slot (s : State) (i : SlotId) :
    s.hardwareReset.slot i = { serial := (s.slot i).serial, record := none } := by
  simp [State.hardwareReset, State.slot]

/-- Settles O8: what is written does not depend on the state before, but for RST_N's level and the queue. -/
theorem powerOn : Obligations.PowerOn :=
  ⟨fun x s => ⟨{ State.afterPowerOn x with inReset := s.inReset, pending := s.pending }, rfl, State.afterPowerOn_unit x,
    State.afterPowerOn_pool x, State.afterPowerOn_slot x, State.afterPowerOn_agent x, State.afterPowerOn_notice x,
    State.afterPowerOn_station x, rfl, rfl, rfl, rfl, State.afterPowerOn_drained x, State.afterPowerOn_detached x, rfl, rfl,
    rfl, rfl, rfl⟩, rfl⟩

/-- Settles O9: a register at a time. -/
theorem hardwareReset : Obligations.HardwareReset :=
  ⟨fun s => ⟨s.hardwareReset, exec_hardwareReset s, s.hardwareReset_unit, s.hardwareReset_pool, s.hardwareReset_slot,
    s.hardwareReset_agent, s.hardwareReset_notice, s.hardwareReset_station, rfl, rfl, rfl, rfl,
    State.afterPowerOn_drained s.supervisor, State.afterPowerOn_detached s.supervisor, rfl, rfl, rfl, rfl, rfl⟩,
    exec_hardwareResetRelease⟩

/-! ### RESET_LIVE (R168) -/

section Cleared

variable (s : State)

theorem State.cleared_slot (i : SlotId) : s.cleared.slot i = { serial := (s.slot i).serial, record := none } := by
  simp [State.cleared, State.slot]

theorem State.cleared_station (a : AgentId) :
    s.cleared.station a =
      if (s.agent a).state = .detaching then { s.station a with resp0 := 0, resp1 := 0, stat := 0 } else s.station a := by
  have answered : (s.station a).answered (.ok 0 0) = { s.station a with resp0 := 0, resp1 := 0, stat := 0 } := rfl
  rw [← answered]
  refine Eq.trans ?_ (if_congr (s.busy_iff a) rfl rfl)
  simp [State.cleared, State.station]

theorem State.cleared_drained (u : UnitId) :
    s.cleared.drained.get u = (s.drained.get u || (s.unit u).state == .draining) := by
  simp [State.cleared]

theorem State.cleared_detached (a : AgentId) :
    s.cleared.detached.get a = (s.detached.get a || (s.agent a).state == .detaching) := by
  simp [State.cleared, State.busy]

theorem State.cleared_arrivals :
    s.cleared.timer.inFlight.map Arrival.slot = s.timer.inFlight.map Arrival.slot ∧
      ∀ x, x ∈ s.cleared.timer.inFlight → x.stale = true := by
  simp [State.cleared, Function.comp_def]

end Cleared

/-- Settles O10: the command is the clearing of the live state and its answer. -/
theorem resetLive : Obligations.ResetLive := by
  intro aid s sup
  have run : exec (.resetLive aid) s = .next ((s.takenControl 0x31).cleared.answerControl
      (.ok (place 0 7 (allUnits.countP fun u => (s.unit u).state == .draining) |||
        place 16 5 (allAgents.countP fun a => (s.agent a).state == .detaching)) 0)) := by
    rw [exec_resetLive, execResetLive, atControlStation_supervises sup]
    rfl
  exact ⟨_, run, (s.takenControl 0x31).cleared_unit, (s.takenControl 0x31).cleared_pool,
    (s.takenControl 0x31).cleared_slot, (s.takenControl 0x31).cleared_agent, (s.takenControl 0x31).cleared_notice,
    (s.takenControl 0x31).cleared_station, rfl, rfl, rfl, rfl, rfl, (s.takenControl 0x31).cleared_arrivals.1,
    (s.takenControl 0x31).cleared_arrivals.2, rfl, rfl, (s.takenControl 0x31).cleared_drained,
    (s.takenControl 0x31).cleared_detached, rfl, rfl, sup.1, rfl, rfl⟩

/-! ### The laws right after reset -/

theorem depthLaw_of_free {s : State} (free : ∀ i, s.record i = none) : DepthLaw s :=
  fun i _ _ found => nomatch (free i).symm.trans found

theorem holderLaw_afterPowerOn (straps : AgentId) : HolderLaw (State.afterPowerOn straps) := by
  refine (holderLaw_iff _).mpr fun u => .of_empty ?_ (by simp [State.holders, State.holding])
  rw [State.afterPowerOn_unit]
  decide

theorem quotaLaw_afterPowerOn (straps : AgentId) : QuotaLaw (State.afterPowerOn straps) := by
  intro a
  rw [State.recordCount_of_free (State.afterPowerOn_record straps), State.afterPowerOn_agent]
  exact ⟨Nat.zero_le _, defaultQuota_le⟩

/-- Settles O11: a part just powered on has no record, no waiter and the default configuration. -/
theorem lawsHoldAtReset : Obligations.LawsHoldAtReset := by
  obtain ⟨queues, marks, bands, sessions⟩ := sound_afterPowerOn Config.resetStraps
  obtain ⟨ranges, countdowns, timer, arrivals, kinds⟩ := ranges_afterPowerOn Config.resetStraps
  have free := State.afterPowerOn_record Config.resetStraps
  have settled := settledBut_of_free free
  exact ⟨depthLaw_of_free free, marks, holderLaw_afterPowerOn _, queues, serviceLaw_afterPowerOn _,
    quotaLaw_afterPowerOn _, sessions, noticeLaw_of_empty free fun a =>
      congrArg NoticeQueue.entries (State.afterPowerOn_notice _ a), bands, ranges,
    countdowns, timer, arrivals, kinds, (oneHoldLaw_iff _).mpr settled.one,
    (servedLaw_iff queues).mpr fun v => settled.served v (by simp)⟩

end Sys2Proof.Machine
end

section
/-! SUPPORT. Words made of fields (spec/10 Tables 10-3 to 10-7): what a field of a word reads that was put together from
placed values; the statement on the formats. -/

namespace Sys2Proof.Machine

/-! ### A placed value -/

theorem getLsbD_place_eq (low width v : Nat) {k : Nat} (range : k < 32) :
    (place low width v).getLsbD k = (decide (low ≤ k ∧ k < low + width) && v.testBit (k - low)) := by
  rw [getLsbD_place, decide_eq_true range, Bool.true_and, ← Bool.and_assoc, ← Bool.decide_and]
  congr 1
  exact decide_eq_decide.mpr (by omega)

theorem toNat_place {low width : Nat} (room : low + width ≤ 32) (v : Nat) :
    (place low width v).toNat = v % 2 ^ width * 2 ^ low := by
  rw [place, BitVec.toNat_ofNat]
  refine Nat.mod_eq_of_lt ?_
  calc v % 2 ^ width * 2 ^ low < 2 ^ width * 2 ^ low :=
        Nat.mul_lt_mul_of_pos_right (Nat.mod_lt _ (Nat.two_pow_pos width)) (Nat.two_pow_pos low)
    _ = 2 ^ (low + width) := by rw [← pow_add, Nat.add_comm]
    _ ≤ 2 ^ 32 := Nat.pow_le_pow_right (by decide) room

/-! ### Fields of a word -/

theorem bitField_or (v w : Word) (low width : Nat) :
    bitField (v ||| w) low width = bitField v low width ||| bitField w low width := by
  simp only [bitField, BitVec.toNat_or, ← Nat.shiftRight_eq_div_pow, Nat.shiftRight_or_distrib, Nat.or_mod_two_pow]

/-- A field reads the value that was placed in it. -/
@[simp] theorem bitField_place_self {low width wide v : Nat} (room : low + width ≤ 32) (fits : width ≤ wide)
    (small : v < 2 ^ width) : bitField (place low width v) low wide = v := by
  rw [bitField, toNat_place room, Nat.mod_eq_of_lt small, Nat.mul_div_cancel _ (Nat.two_pow_pos low)]
  exact Nat.mod_eq_of_lt (small.trans_le (Nat.pow_le_pow_right (by decide) fits))

/-- A field below a placed value reads nothing of it. -/
@[simp] theorem bitField_place_below {low width first wide : Nat} (v : Nat) (room : low + width ≤ 32)
    (below : first + wide ≤ low) : bitField (place low width v) first wide = 0 := by
  obtain ⟨gap, rfl⟩ := Nat.exists_eq_add_of_le below
  have split : v % 2 ^ width * 2 ^ (first + wide + gap) = v % 2 ^ width * 2 ^ gap * 2 ^ wide * 2 ^ first := by
    rw [pow_add, pow_add]
    ring
  rw [bitField, toNat_place room, split, Nat.mul_div_cancel _ (Nat.two_pow_pos first), Nat.mul_mod_left]

/-- A field above a placed value reads nothing of it. -/
@[simp] theorem bitField_place_above {low width first : Nat} (v wide : Nat) (room : low + width ≤ 32)
    (above : low + width ≤ first) : bitField (place low width v) first wide = 0 := by
  have small : v % 2 ^ width * 2 ^ low < 2 ^ first :=
    calc v % 2 ^ width * 2 ^ low < 2 ^ width * 2 ^ low :=
          Nat.mul_lt_mul_of_pos_right (Nat.mod_lt _ (Nat.two_pow_pos width)) (Nat.two_pow_pos low)
      _ = 2 ^ (low + width) := by rw [← pow_add, Nat.add_comm]
      _ ≤ 2 ^ first := Nat.pow_le_pow_right (by decide) above
  rw [bitField, toNat_place room, Nat.div_eq_of_lt small, Nat.zero_mod]

/-! ### The ranges of the numbers that are placed (Table 10-3) -/

@[simp] theorem Handle.slot_lt (h : Handle) : h.slot.val < 256 := Nat.lt_trans h.slot.isLt (by decide)

@[simp] theorem Handle.serial_lt (h : Handle) : h.serial.toNat < 256 := h.serial.isLt

@[simp] theorem Target.number_lt (t : Target) : t.number < 64 := by
  cases t with
  | unit u => exact u.isLt
  | pool p => exact Nat.lt_trans p.isLt (by decide)

@[simp] theorem Target.marker_le (t : Target) : t.marker ≤ 1 := by cases t <;> simp [Target.marker]

@[simp] theorem Standing.stateNo_lt (x : Standing) : x.stateNo < 8 := by cases x <;> simp [Standing.stateNo]

@[simp] theorem Claim.kindNo_lt (k : Claim) : k.kindNo < 4 := by cases k <;> simp [Claim.kindNo]

@[simp] theorem Mode.no_le (m : Mode) : m.no ≤ 1 := by cases m <;> decide

@[simp] theorem flagNo_le (b : Bool) : flagNo b ≤ 1 := by cases b <;> decide

@[simp] theorem SpentCause.no_lt (c : SpentCause) : c.no < 8 := by cases c <;> decide

@[simp] theorem Standing.causeNo_lt (x : Standing) : x.causeNo < 8 := by
  cases x with
  | spent k c => exact c.no_lt
  | _ => simp [Standing.causeNo]

@[simp] theorem NoticeKind.no_lt (k : NoticeKind) : k.no < 8 := by cases k <;> decide

/-! ### The words (Tables 10-4 and 10-6) -/

theorem Handle.word_fields (h : Handle) :
    bitField h.word 0 8 = h.slot.val ∧ bitField h.word 8 8 = h.serial.toNat ∧
      ∀ low width, 16 ≤ low → bitField h.word low width = 0 := by
  refine ⟨?_, ?_, fun low width above => ?_⟩
  · simp [Handle.word, bitField_or]
  · simp [Handle.word, bitField_or]
  · rw [Handle.word, bitField_or, bitField_place_above _ _ (by decide) (by omega),
      bitField_place_above _ _ (by decide) (by omega), Nat.or_zero]

theorem Target.word_fields (t : Target) :
    bitField t.word 16 6 = t.number ∧ bitField t.word 22 1 = 0 ∧ bitField t.word 23 1 = t.marker ∧
      (∀ low width, low + width ≤ 16 → bitField t.word low width = 0) ∧
      ∀ low width, 24 ≤ low → bitField t.word low width = 0 := by
  refine ⟨?_, ?_, ?_, fun low width below => ?_, fun low width above => ?_⟩
  · simp [Target.word, bitField_or]
  · simp [Target.word, bitField_or]
  · simp [Target.word, bitField_or]
  · rw [Target.word, bitField_or, bitField_place_below _ (by decide) (by omega),
      bitField_place_below _ (by decide) (by omega), Nat.or_zero]
  · rw [Target.word, bitField_or, bitField_place_above _ _ (by decide) (by omega),
      bitField_place_above _ _ (by decide) (by omega), Nat.or_zero]

/-- The handle and the target share a word without touching one another's fields. -/
theorem recordWord_fields (h : Handle) (t : Target) :
    (∀ low width, low + width ≤ 16 → bitField (recordWord h t) low width = bitField h.word low width) ∧
      ∀ low width, 16 ≤ low → bitField (recordWord h t) low width = bitField t.word low width := by
  obtain ⟨_, _, clear⟩ := h.word_fields
  obtain ⟨_, _, _, below, _⟩ := t.word_fields
  refine ⟨fun low width first => ?_, fun low width second => ?_⟩
  · rw [recordWord, bitField_or, below low width first, Nat.or_zero]
  · rw [recordWord, bitField_or, clear low width second, Nat.zero_or]

theorem recordWordWithAgent_fields (h : Handle) (t : Target) (a : AgentId) :
    bitField (recordWordWithAgent h t a) 0 24 = bitField (recordWord h t) 0 24 ∧
      bitField (recordWordWithAgent h t a) 24 8 = a.val := by
  have clear : bitField (recordWord h t) 24 8 = 0 := by
    rw [(recordWord_fields h t).2 24 8 (by decide)]
    exact t.word_fields.2.2.2.2 24 8 (by decide)
  refine ⟨?_, ?_⟩
  · rw [recordWordWithAgent, bitField_or, bitField_place_below _ (by decide) (by decide), Nat.or_zero]
  · rw [recordWordWithAgent, bitField_or, clear, bitField_place_self (by decide) (by decide) a.isLt, Nat.zero_or]

theorem State.statusWord_fields (s : State) (i : SlotId) (r : Record) (depth : r.standing.depth.getD 0 ≤ 15)
    (countdown : r.standing.countdown.getD 0 ≤ 4095) :
    bitField (s.statusWord i r) 0 3 = r.standing.stateNo ∧ bitField (s.statusWord i r) 4 2 = r.standing.claim.kindNo ∧
      bitField (s.statusWord i r) 6 1 = r.mode.no ∧ bitField (s.statusWord i r) 7 1 = flagNo (s.upgradePending i) ∧
      bitField (s.statusWord i r) 8 4 = r.standing.depth.getD 0 ∧ bitField (s.statusWord i r) 12 3 = r.standing.causeNo ∧
      bitField (s.statusWord i r) 16 12 = r.standing.countdown.getD 0 := by
  have depth' : r.standing.depth.getD 0 < 16 := Nat.lt_succ_of_le depth
  have countdown' : r.standing.countdown.getD 0 < 4096 := Nat.lt_succ_of_le countdown
  simp [State.statusWord, bitField_or, depth', countdown']

theorem noticeWord_fields (n : Notice) {k : Nat} (range : k ≤ 7) :
    bitField (noticeWord n k) 0 8 = n.handle.slot.val ∧ bitField (noticeWord n k) 8 8 = n.handle.serial.toNat ∧
      bitField (noticeWord n k) 16 6 = n.target.number ∧ bitField (noticeWord n k) 23 1 = n.target.marker ∧
      bitField (noticeWord n k) 24 3 = n.kind.no ∧ bitField (noticeWord n k) 28 4 = k := by
  have small : k < 8 := Nat.lt_succ_of_le range
  simp [noticeWord, Handle.word, Target.word, bitField_or, small]

theorem refused_fields {reason location : Nat} (reasons : reason ≤ 22) (locations : location ≤ 63) :
    bitField (Status.refused reason location).word 0 8 = 7 ∧
      bitField (Status.refused reason location).word 8 8 = reason ∧
      bitField (Status.refused reason location).word 16 16 = location := by
  have seven : (7 : Word) = place 0 3 7 := by decide
  have reason' : reason < 32 := by omega
  have location' : location < 64 := by omega
  simp [Status.word, seven, bitField_or, reason', location']

/-! ### The numbers that arguments carry (Table 10-3) -/

theorem modeOf_eq_some_iff (n : Nat) (m : Mode) : modeOf n = some m ↔ m.no = n := by
  refine ⟨fun named => ?_, fun number => modeOf_of_eq_no number.symm⟩
  unfold modeOf at named
  split at named <;> cases named <;> rfl

theorem flagOf_eq_some_iff (n : Nat) (b : Bool) : flagOf n = some b ↔ flagNo b = n := by
  refine ⟨fun named => ?_, fun number => ?_⟩
  · unfold flagOf at named
    split at named <;> cases named <;> rfl
  · subst number
    cases b <;> rfl

theorem sourceOf_eq_some_iff (n : Nat) (x : TickSource) : sourceOf n = some x ↔ x.no = n := by
  refine ⟨fun named => ?_, fun number => sourceOf_of_eq_no number.symm⟩
  unfold sourceOf at named
  split at named <;> cases named <;> rfl

/-- Settles O12: a lemma for each word, and the tables of numbers. -/
theorem wordFormats : Obligations.WordFormats := by
  refine ⟨fun low width v _ k range => getLsbD_place_eq low width v range, fun h t => ?words,
    fun s i r depth countdown => s.statusWord_fields i r depth countdown, fun n k range => noticeWord_fields n range,
    fun reason location reasons locations => refused_fields reasons locations, ?numbers,
    ⟨modeOf_eq_some_iff, flagOf_eq_some_iff, sourceOf_eq_some_iff, rfl, rfl, fun n => orderOf_eq_none⟩, by decide, rfl⟩
  case words =>
    obtain ⟨slot, serial, clear⟩ := h.word_fields
    obtain ⟨number, gap, marker, below, above⟩ := t.word_fields
    obtain ⟨first, second⟩ := recordWord_fields h t
    exact ⟨slot, serial, clear 16 16 (by decide), below 0 16 (by decide), number, gap, marker, above 24 8 (by decide),
      (first 0 8 (by decide)).trans slot, (first 8 8 (by decide)).trans serial, (second 16 6 (by decide)).trans number,
      (second 23 1 (by decide)).trans marker, (second 22 1 (by decide)).trans gap,
      (second 24 8 (by decide)).trans (above 24 8 (by decide)), recordWordWithAgent_fields h t⟩
  case numbers => exact ⟨rfl, rfl, rfl, rfl, rfl, rfl, rfl, fun _ => ⟨rfl, rfl⟩, fun _ => ⟨rfl, rfl⟩,
    fun _ _ _ => rfl, fun _ _ _ => rfl, fun _ _ _ => rfl, fun _ _ => rfl, fun _ => rfl, fun _ => rfl, fun _ => rfl,
    fun _ _ _ => rfl, fun _ _ _ => rfl, fun _ _ _ => rfl, fun _ _ => rfl, by decide⟩

end Sys2Proof.Machine
end
